-- ==== Sys2Proof/Word.lean ====
section
/-! DEFINITION. The plain types of the model: bytes, tables of a fixed number of like entries, and the
three-party index. The conventions are those of spec/00_scope.md ("Conventions"). -/

namespace Sys2Proof

/-- One byte of a frame, of a notice or of the array (00_scope.md, "Layouts"). -/
abbrev Byte := BitVec 8

/-- A table of exactly `n` entries: the eight streams, the twenty-four slots, the three ports. The number of
entries is part of the type, so a table can be neither short nor long. -/
structure Table (α : Type) (n : Nat) where
  /-- the entries in index order -/
  entries : List α
  /-- there are exactly `n` of them -/
  size : entries.length = n
  deriving DecidableEq, Repr

variable {α β : Type} {n : Nat}

/-- Entry `i` of a table. -/
def Table.get (t : Table α n) (i : Fin n) : α :=
  t.entries[i.val]'(by rw [t.size]; exact i.isLt)

/-- The table with entry `i` replaced. -/
def Table.set (t : Table α n) (i : Fin n) (x : α) : Table α n :=
  ⟨t.entries.set i.val x, by rw [List.length_set]; exact t.size⟩

/-- The table with entry `i` changed by `f`. -/
def Table.modify (t : Table α n) (i : Fin n) (f : α → α) : Table α n :=
  t.set i (f (t.get i))

/-- The table whose entry `i` is `f i`. -/
def Table.ofFn (f : Fin n → α) : Table α n :=
  ⟨List.ofFn f, List.length_ofFn⟩

/-- The table in which every entry is `x`. -/
def Table.replicate (n : Nat) (x : α) : Table α n :=
  ⟨List.replicate n x, List.length_replicate⟩

/-- The table with every entry changed by `f`. -/
def Table.map (f : α → β) (t : Table α n) : Table β n :=
  ⟨t.entries.map f, by rw [List.length_map]; exact t.size⟩

/-- The table with every entry changed by `f`, which is told the entry's index. -/
def Table.mapFin (f : Fin n → α → β) (t : Table α n) : Table β n :=
  Table.ofFn fun i => f i (t.get i)

@[simp] theorem Table.get_set_same (t : Table α n) (i : Fin n) (x : α) : (t.set i x).get i = x := by
  simp [Table.get, Table.set]

theorem Table.get_set_ne (t : Table α n) {i j : Fin n} (x : α) (h : i ≠ j) : (t.set i x).get j = t.get j := by
  have : i.val ≠ j.val := fun e => h (Fin.ext e)
  simp [Table.get, Table.set, this]

theorem Table.get_set (t : Table α n) (i j : Fin n) (x : α) :
    (t.set i x).get j = if i = j then x else t.get j := by
  by_cases h : i = j
  · subst h; simp
  · simp [h, Table.get_set_ne t x h]

@[simp] theorem Table.get_modify_same (t : Table α n) (i : Fin n) (f : α → α) :
    (t.modify i f).get i = f (t.get i) := by
  simp [Table.modify]

theorem Table.get_modify_ne (t : Table α n) {i j : Fin n} (f : α → α) (h : i ≠ j) :
    (t.modify i f).get j = t.get j :=
  Table.get_set_ne t _ h

@[simp] theorem Table.get_ofFn (f : Fin n → α) (i : Fin n) : (Table.ofFn f).get i = f i := by
  simp [Table.get, Table.ofFn]

@[simp] theorem Table.get_replicate (x : α) (i : Fin n) : (Table.replicate n x).get i = x := by
  simp [Table.get, Table.replicate]

@[simp] theorem Table.get_map (f : α → β) (t : Table α n) (i : Fin n) : (t.map f).get i = f (t.get i) := by
  simp [Table.get, Table.map]

@[simp] theorem Table.get_mapFin (f : Fin n → α → β) (t : Table α n) (i : Fin n) :
    (t.mapFin f).get i = f i (t.get i) := by
  simp [Table.mapFin]

/-- Two tables with the same entries are the same table. -/
theorem Table.ext_get {t u : Table α n} (h : ∀ i, t.get i = u.get i) : t = u := by
  cases t with | mk a ha => cases u with | mk b hb =>
  have : a = b := by
    apply List.ext_getElem (by rw [ha, hb])
    intro k h1 h2
    simpa [Table.get] using h ⟨k, ha ▸ h1⟩
  subst this; rfl

/-- A quotient rounded toward plus infinity (00_scope.md, "Rounding": "Rounded up" and "ceiling"). -/
def divUp (a b : Nat) : Nat := (a + (b - 1)) / b

end Sys2Proof
end

