-- ==== Sys2Proof/Machine/Bytes.lean ====
section
/-! DEFINITION. Byte order, check bytes and check words: the layouts of R189 and R190, the CRC-32 of R13. -/

namespace Sys2Proof.Machine

/-- A figure as `k` bytes, most significant first (00_scope.md, "Layouts"). -/
def be : Nat → Nat → List Byte
  | 0, _ => []
  | k + 1, v => BitVec.ofNat 8 (v / 256 ^ k) :: be k v

/-- A signed figure as `k` bytes of two's complement, most significant first (R189). -/
def beInt (k : Nat) (v : Int) : List Byte := be k (v % (256 ^ k : Nat)).toNat

/-- The unsigned figure that bytes spell, most significant first. -/
def ofBe (bs : List Byte) : Nat := bs.foldl (fun acc b => acc * 256 + b.toNat) 0

/-- The two's complement figure that `k` bytes spell. -/
def ofBeInt (k : Nat) (bs : List Byte) : Int :=
  let v := ofBe bs
  if 2 * v < 256 ^ k then (v : Int) else (v : Int) - (256 ^ k : Nat)

/-- A mark: 01h when set (R189). -/
def markByte (b : Bool) : List Byte := be 1 (if b then 1 else 0)

/-- A field of `k` bytes with a mark telling whether it is present, zero when absent (R189). -/
def optField (k : Nat) : Option Nat → List Byte
  | some v => markByte true ++ be k v
  | none => markByte false ++ be k 0

/-- The same for a signed field. -/
def optFieldInt (k : Nat) : Option Int → List Byte
  | some v => markByte true ++ beInt k v
  | none => markByte false ++ be k 0

/-- `k` further bits of the CRC-8 with polynomial 07h, most significant bit first (R190). -/
def crc8Bits : Nat → Nat → Nat
  | 0, c => c
  | k + 1, c => crc8Bits k (if 128 ≤ c then ((2 * c) % 256) ^^^ 7 else 2 * c)

/-- The check byte over bytes in order (R190). -/
def crc8 (bs : List Byte) : Byte :=
  BitVec.ofNat 8 (bs.foldl (fun c b => crc8Bits 8 (c ^^^ b.toNat)) 0)

/-- `k` further bits of the reflected CRC-32 with polynomial EDB88320h (R13). -/
def crc32Bits : Nat → Nat → Nat
  | 0, c => c
  | k + 1, c => crc32Bits k (if c % 2 = 1 then (c / 2) ^^^ 0xEDB88320 else c / 2)

/-- The check word over bytes in order: begun from FFFFFFFFh, complemented at the end, each byte entering least
significant bit first (R13). -/
def crc32 (bs : List Byte) : Nat :=
  (bs.foldl (fun c b => crc32Bits 8 (c ^^^ b.toNat)) 0xFFFFFFFF) ^^^ 0xFFFFFFFF

/-- A signed or unsigned figure in a 4-byte field; a figure outside the field's range is a free value given by the
caller. -/
def fit32 (lo hi : Int) (wide : Int → BitVec 32) (v : Int) : BitVec 32 :=
  if lo ≤ v ∧ v ≤ hi then BitVec.ofInt 32 v else wide v

end Sys2Proof.Machine
end

