-- ==== Sys2Proof/Syntax.lean ====
section
/-! DEFINITION. The commands of the part: one constructor per row of spec/opcode_table.json. The operands of a
request are its parameters in the order its rule names them (R189); the operands of an event are what the outside
world, or the physics of the array, decides about it. -/

namespace Sys2Proof

/-- The three parties (R5): Works at port 0, Plant at port 1, Town at port 2. -/
inductive Party where
  | works | plant | town
  deriving DecidableEq, Repr

/-- One band of a tariff as a request names it (R134, R141): start minute, end minute, price. -/
structure Band where
  /-- start minute -/
  start : Nat
  /-- end minute -/
  stop : Nat
  /-- price in micro-units per kWh -/
  price : Nat
  deriving DecidableEq, Repr

/-- The requests of the request-code index (section 11.2) other than FETCH. -/
inductive Request where
  | takeNotice | setFilter | readPort
  | writeConfig | readConfig | readStation | approve | recommission | clearStore
  | readSlot | readStream
  | declare | readDeclaration | setFlag | clearFlag | readFlags
  | readFrame | confirmGrant | refuseGrant | reportTrip | reportReady | park | unpark | setLimits | readConsumer
  | nominate | cancelNomination | readInterval
  | stageTariff | consentTariff | withdrawTariff | readTariff | readAccount
  | readRecord | releaseRecord | readStore
  | readTime | adjustTime
  deriving DecidableEq, Repr

/-- Why a complete request frame is a bad one (R189, R190). -/
inductive FrameFault where
  /-- the check byte differs from the CRC-8 of the bytes before it (R190, step 1) -/
  | badCheck
  /-- the length byte is above 120 (R189; R190, step 1) -/
  | overlong
  /-- the request code is absent from the index (R190, step 2) -/
  | unknownCode
  /-- a known request whose parameter length is not the one the index gives (R190, step 4) -/
  | wrongLength (r : Request)
  deriving DecidableEq, Repr

/-- What a checkpoint sector is left as when its program or its erase is cut short. -/
inductive CkptLeft where
  /-- still as it was before -/
  | untouched
  /-- every byte FFh -/
  | erased
  /-- a checkpoint whose CRC does not match, with the sequence number that can still be read, if any -/
  | bad (sequence : Option Nat)
  deriving DecidableEq, Repr

/-- What the array is left holding when an operation is cut short by a power-fail warning, a loss of the supply
or a restart. The manual gives the rules a program and an erase obey (R153), not the instant at which they stop,
so the instant comes with the command. -/
structure Torn where
  /-- whole units of the interrupted program already written -/
  units : Nat
  /-- what the unit in hand, or the sector caught in an erase, is left holding, from its first byte; bytes past
  the end of the list are FFh -/
  bytes : List Byte
  /-- the same for a checkpoint sector -/
  ckpt : CkptLeft
  deriving DecidableEq, Repr

/-- The commands. Rows that a party sends carry the party of the port they arrive on (R5). -/
inductive Instr where
  /-- FETCH (R192): the second and third byte of its frame, and how many further bytes are clocked. -/
  | fetch (p : Party) (len chk : Byte) (clocked : Nat)
  | takeNotice (p : Party)
  | setFilter (p : Party) (filter : Nat)
  | readPort (p : Party)
  | writeConfig (p : Party) (item index : Nat) (value : Int)
  | readConfig (p : Party) (image item index : Nat)
  | readStation (p : Party)
  | approve (p : Party) (word : Nat)
  | recommission (p : Party)
  | recommissionWindowExpiry
  | clearStore (p : Party)
  | clearStoreWindowExpiry
  | readSlot (p : Party) (slot : Nat)
  | readStream (p : Party) (stream : Nat)
  | declare (p : Party) (declaration value lifetime : Nat)
  | readDeclaration (p : Party) (declaration : Nat)
  | setFlag (p : Party) (flag : Nat)
  | clearFlag (p : Party) (flag : Nat)
  | readFlags (p : Party)
  | readFrame (p : Party) (part : Nat)
  | confirmGrant (p : Party) (entry id : Nat)
  | refuseGrant (p : Party) (entry id acceptable : Nat)
  | reportTrip (p : Party) (entry : Nat)
  | reportReady (p : Party) (entry firing : Nat)
  | park (p : Party) (entry : Nat)
  | unpark (p : Party) (entry : Nat)
  | setLimits (p : Party) (entry minimum maximum ramp threshold : Nat)
  | readConsumer (p : Party) (entry : Nat)
  | nominate (p : Party) (interval kwh : Nat)
  | cancelNomination (p : Party) (interval : Nat)
  | readInterval (p : Party)
  | stageTariff (p : Party) (contract effective : Nat) (bands : List Band) (percentage : Nat)
  | consentTariff (p : Party) (contract identity : Nat)
  | withdrawTariff (p : Party) (contract : Nat)
  | readTariff (p : Party) (contract which : Nat)
  | readAccount (p : Party) (contract which part : Nat)
  | readRecord (p : Party) (sector unit part : Nat)
  | releaseRecord (p : Party) (sector unit : Nat)
  | readStore (p : Party) (part : Nat)
  | readTime (p : Party)
  | adjustTime (p : Party) (step : Int)
  /-- BAD_FRAME (R190): a complete request frame that no request rule judges. -/
  | badFrame (p : Party) (fault : FrameFault)
  | incompleteFrame (p : Party)
  /-- CHARACTER_RECEIVED (R21): the eight data bits, the parity bit, and whether the stop bit is at mark. -/
  | characterReceived (data : Byte) (parity stopAtMark : Bool)
  | linkBreak
  | readingApplied
  /-- PULSE_EDGE (R36): `ms` milliseconds have passed on the millisecond counter since the event that last moved it. -/
  | pulseEdge (pin : Fin 8) (ms : Nat)
  | pulseFall (pin : Fin 8) (ms : Nat)
  | pulseQualified (pin : Fin 8) (ms : Nat)
  | tickBoundary
  | slotAgeExpiry (slot : Fin 24)
  | declarationStale (declaration : Fin 13)
  | declarationFallback (declaration : Fin 13)
  | firstExpiry (entry : Fin 12)
  | secondExpiry (entry : Fin 12)
  | tickIntegration
  | checkWindowEnd (stream : Fin 8)
  | frameCompletion
  | periodicCheckpoint
  | arrayServe
  | recordProgramDone
  /-- RECORD_UNIT_FAIL (R160): the unit of the attempt that failed, what that unit reads, and what the tag byte
  reads after the void program. -/
  | recordUnitFail (unit : Nat) (left : List Byte) (tag : Byte)
  /-- MARK_PROGRAM_DONE (R161): what the mark byte was driven to. -/
  | markProgramDone (mark : Byte)
  | recordReadDone
  /-- SECTOR_ERASE_DONE (R163): what the sector reads, from its first byte; the erase verifies when all is FFh. -/
  | sectorEraseDone (left : List Byte)
  /-- CONFIG_PROGRAM_DONE (R167): `none` when every unit verifies, else the failing unit and what it reads. -/
  | configProgramDone (failed : Option (Nat × List Byte))
  /-- CHECKPOINT_PROGRAM_DONE (R169): `none` when the last unit verifies, else the sequence number that the
  abandoned checkpoint shows, if any can be read. -/
  | checkpointProgramDone (failed : Option (Option Nat))
  | pfw (torn : Torn)
  | resetAssert
  /-- RESET_RELEASE (R200): for how many microseconds nRESET was held low. -/
  | resetRelease (heldMicroseconds : Nat) (torn : Torn)
  | powerReturn
  | mainSupplyLoss (torn : Torn)
  | backupSupplyFail
  | departure
  | lineReturnsToMark
  deriving DecidableEq, Repr

end Sys2Proof
end

