-- ==== Sys2Proof/WellFormed.lean ====
section
/-! DEFINITION. Which commands can reach the part: every parameter fits the field that R189 gives it, and what the
array is left holding fits the unit or the sector it stands in (R153). `exec` takes ill-formed commands too. -/

namespace Sys2Proof

/-- A figure fits `k` bytes. -/
def fits (k n : Nat) : Bool := decide (n < 256 ^ k)

/-- A signed figure fits `k` bytes of two's complement. -/
def fitsInt (k : Nat) (v : Int) : Bool := decide (-(256 ^ k : Nat) ≤ 2 * v ∧ 2 * v < (256 ^ k : Nat))

/-- A band fits the 8 bytes it takes in STAGE TARIFF. -/
def Band.wellFormed (b : Band) : Bool := fits 2 b.start && fits 2 b.stop && fits 4 b.price

/-- A cut-short operation leaves at most the units of a configuration program and the bytes of a sector. -/
def Torn.wellFormed (t : Torn) : Bool := decide (t.units ≤ 59 ∧ t.bytes.length ≤ 4096)

/-- Well-formed commands. -/
def Instr.wellFormed : Instr → Bool
  | .fetch .. => true
  | .takeNotice _ => true
  | .setFilter _ filter => fits 4 filter
  | .readPort _ => true
  | .writeConfig _ item index value => fits 1 item && fits 1 index && fitsInt 4 value
  | .readConfig _ image item index => fits 1 image && fits 1 item && fits 1 index
  | .readStation _ => true
  | .approve _ word => fits 4 word
  | .recommission _ => true
  | .recommissionWindowExpiry => true
  | .clearStore _ => true
  | .clearStoreWindowExpiry => true
  | .readSlot _ slot => fits 1 slot
  | .readStream _ stream => fits 1 stream
  | .declare _ declaration value lifetime => fits 1 declaration && fits 4 value && fits 2 lifetime
  | .readDeclaration _ declaration => fits 1 declaration
  | .setFlag _ flag => fits 1 flag
  | .clearFlag _ flag => fits 1 flag
  | .readFlags _ => true
  | .readFrame _ part => fits 1 part
  | .confirmGrant _ entry id => fits 1 entry && fits 1 id
  | .refuseGrant _ entry id acceptable => fits 1 entry && fits 1 id && fits 4 acceptable
  | .reportTrip _ entry => fits 1 entry
  | .reportReady _ entry firing => fits 1 entry && fits 4 firing
  | .park _ entry => fits 1 entry
  | .unpark _ entry => fits 1 entry
  | .setLimits _ entry minimum maximum ramp threshold =>
    fits 1 entry && fits 4 minimum && fits 4 maximum && fits 4 ramp && fits 4 threshold
  | .readConsumer _ entry => fits 1 entry
  | .nominate _ interval kwh => fits 4 interval && fits 4 kwh
  | .cancelNomination _ interval => fits 4 interval
  | .readInterval _ => true
  | .stageTariff _ contract effective bands percentage =>
    fits 1 contract && fits 4 effective && decide (bands.length ≤ 14) && bands.all Band.wellFormed &&
    fits 1 percentage
  | .consentTariff _ contract identity => fits 1 contract && fits 4 identity
  | .withdrawTariff _ contract => fits 1 contract
  | .readTariff _ contract which => fits 1 contract && fits 1 which
  | .readAccount _ contract which part => fits 1 contract && fits 1 which && fits 1 part
  | .readRecord _ sector unit part => fits 1 sector && fits 1 unit && fits 1 part
  | .releaseRecord _ sector unit => fits 1 sector && fits 1 unit
  | .readStore _ part => fits 1 part
  | .readTime _ => true
  | .adjustTime _ step => fitsInt 1 step
  | .badFrame .. => true
  | .incompleteFrame _ => true
  | .characterReceived .. => true
  | .linkBreak => true
  | .readingApplied => true
  | .pulseEdge _ ms => fits 4 ms
  | .pulseFall _ ms => fits 4 ms
  | .pulseQualified _ ms => fits 4 ms
  | .tickBoundary => true
  | .slotAgeExpiry _ => true
  | .declarationStale _ => true
  | .declarationFallback _ => true
  | .firstExpiry _ => true
  | .secondExpiry _ => true
  | .tickIntegration => true
  | .checkWindowEnd _ => true
  | .frameCompletion => true
  | .periodicCheckpoint => true
  | .arrayServe => true
  | .recordProgramDone => true
  | .recordUnitFail unit left _ => decide (unit < 35 ∧ left.length ≤ 32)
  | .markProgramDone _ => true
  | .recordReadDone => true
  | .sectorEraseDone left => decide (left.length ≤ 4096)
  | .configProgramDone failed => match failed with
    | none => true
    | some (unit, left) => decide (unit < 59 ∧ left.length ≤ 32)
  | .checkpointProgramDone _ => true
  | .pfw torn => torn.wellFormed
  | .resetAssert => true
  | .resetRelease _ torn => torn.wellFormed
  | .powerReturn => true
  | .mainSupplyLoss torn => torn.wellFormed
  | .backupSupplyFail => true
  | .departure => true
  | .lineReturnsToMark => true

end Sys2Proof
end

