-- ==== Sys2Proof/Decode.lean ====
section
/-! DEFINITION. The commands that words and frames spell. The opcode table of this block gives no bits, so no word spells
a command; what a party clocks into its port does (R189, R190, section 11.2). -/

namespace Sys2Proof

/-- The command that a word spells by the table's bits: none, since the table gives no row any bits (assumption 7). -/
def decodeTableWord (_nbits _w : Nat) : Option Instr := none

open Sys2Proof.Machine

/-- The request-code index (section 11.2), FETCH apart. -/
def requestOf (code : Nat) : Option Request :=
  match code with
  | 0x01 => some .takeNotice | 0x02 => some .setFilter | 0x03 => some .readPort
  | 0x10 => some .writeConfig | 0x11 => some .readConfig | 0x12 => some .readStation | 0x13 => some .approve
  | 0x14 => some .recommission | 0x15 => some .clearStore
  | 0x20 => some .readSlot | 0x21 => some .readStream
  | 0x30 => some .declare | 0x31 => some .readDeclaration | 0x32 => some .setFlag | 0x33 => some .clearFlag
  | 0x34 => some .readFlags
  | 0x40 => some .readFrame | 0x41 => some .confirmGrant | 0x42 => some .refuseGrant | 0x43 => some .reportTrip
  | 0x44 => some .reportReady | 0x45 => some .park | 0x46 => some .unpark | 0x47 => some .setLimits
  | 0x48 => some .readConsumer
  | 0x50 => some .nominate | 0x51 => some .cancelNomination | 0x52 => some .readInterval
  | 0x60 => some .stageTariff | 0x61 => some .consentTariff | 0x62 => some .withdrawTariff | 0x63 => some .readTariff
  | 0x64 => some .readAccount
  | 0x70 => some .readRecord | 0x71 => some .releaseRecord | 0x72 => some .readStore
  | 0x80 => some .readTime | 0x81 => some .adjustTime
  | _ => none

/-- The parameter length of a request, given the parameters as received (column n of the index). For STAGE TARIFF it is
7 + 8 × the band count byte as received (R190, step 4), so that a band count outside 1 to 6 is judged by R141
(assumption 42). -/
def parameterLength (r : Request) (params : List Byte) : Nat :=
  match r with
  | .takeNotice => 0 | .setFilter => 4 | .readPort => 0
  | .writeConfig => 6 | .readConfig => 3 | .readStation => 0 | .approve => 4 | .recommission => 0 | .clearStore => 0
  | .readSlot => 1 | .readStream => 1
  | .declare => 7 | .readDeclaration => 1 | .setFlag => 1 | .clearFlag => 1 | .readFlags => 0
  | .readFrame => 1 | .confirmGrant => 2 | .refuseGrant => 6 | .reportTrip => 1 | .reportReady => 5 | .park => 1
  | .unpark => 1 | .setLimits => 17 | .readConsumer => 1
  | .nominate => 8 | .cancelNomination => 4 | .readInterval => 0
  | .stageTariff => 7 + 8 * (params.getD 5 0#8).toNat
  | .consentTariff => 5 | .withdrawTariff => 1 | .readTariff => 2 | .readAccount => 3
  | .readRecord => 3 | .releaseRecord => 2 | .readStore => 1
  | .readTime => 0 | .adjustTime => 1

/-- `k` bytes of the parameters from a place on, as a figure. -/
def field (params : List Byte) (at_ k : Nat) : Nat := ofBe ((params.drop at_).take k)

/-- The same as a signed figure. -/
def fieldInt (params : List Byte) (at_ k : Nat) : Int := ofBeInt k ((params.drop at_).take k)

/-- The bands of STAGE TARIFF, 8 bytes each from byte 6 on. -/
def bandsOf (params : List Byte) (count : Nat) : List Band :=
  (List.range count).map fun b =>
    ⟨field params (6 + 8 * b) 2, field params (8 + 8 * b) 2, field params (10 + 8 * b) 4⟩

/-- The request with its parameters, laid end to end in the order its rule names them (R189). -/
def readRequest (p : Party) (r : Request) (x : List Byte) : Instr :=
  match r with
  | .takeNotice => .takeNotice p
  | .setFilter => .setFilter p (field x 0 4)
  | .readPort => .readPort p
  | .writeConfig => .writeConfig p (field x 0 1) (field x 1 1) (fieldInt x 2 4)
  | .readConfig => .readConfig p (field x 0 1) (field x 1 1) (field x 2 1)
  | .readStation => .readStation p
  | .approve => .approve p (field x 0 4)
  | .recommission => .recommission p
  | .clearStore => .clearStore p
  | .readSlot => .readSlot p (field x 0 1)
  | .readStream => .readStream p (field x 0 1)
  | .declare => .declare p (field x 0 1) (field x 1 4) (field x 5 2)
  | .readDeclaration => .readDeclaration p (field x 0 1)
  | .setFlag => .setFlag p (field x 0 1)
  | .clearFlag => .clearFlag p (field x 0 1)
  | .readFlags => .readFlags p
  | .readFrame => .readFrame p (field x 0 1)
  | .confirmGrant => .confirmGrant p (field x 0 1) (field x 1 1)
  | .refuseGrant => .refuseGrant p (field x 0 1) (field x 1 1) (field x 2 4)
  | .reportTrip => .reportTrip p (field x 0 1)
  | .reportReady => .reportReady p (field x 0 1) (field x 1 4)
  | .park => .park p (field x 0 1)
  | .unpark => .unpark p (field x 0 1)
  | .setLimits => .setLimits p (field x 0 1) (field x 1 4) (field x 5 4) (field x 9 4) (field x 13 4)
  | .readConsumer => .readConsumer p (field x 0 1)
  | .nominate => .nominate p (field x 0 4) (field x 4 4)
  | .cancelNomination => .cancelNomination p (field x 0 4)
  | .readInterval => .readInterval p
  | .stageTariff => .stageTariff p (field x 0 1) (field x 1 4) (bandsOf x (field x 5 1)) (field x (6 + 8 * field x 5 1) 1)
  | .consentTariff => .consentTariff p (field x 0 1) (field x 1 4)
  | .withdrawTariff => .withdrawTariff p (field x 0 1)
  | .readTariff => .readTariff p (field x 0 1) (field x 1 1)
  | .readAccount => .readAccount p (field x 0 1) (field x 1 1) (field x 2 1)
  | .readRecord => .readRecord p (field x 0 1) (field x 1 1) (field x 2 1)
  | .releaseRecord => .releaseRecord p (field x 0 1) (field x 1 1)
  | .readStore => .readStore p (field x 0 1)
  | .readTime => .readTime p
  | .adjustTime => .adjustTime p (fieldInt x 0 1)

/-- A complete request frame with a good check (R190, steps 2 and 4). -/
def readFrame (p : Party) (code : Nat) (params : List Byte) : Instr :=
  match requestOf code with
  | none => .badFrame p .unknownCode
  | some r => if params.length = parameterLength r params then readRequest p r params else .badFrame p (.wrongLength r)

/-- The command that a transaction at a party's port is (R189, R190). -/
def readTransaction (p : Party) (bytes : List Byte) : Instr :=
  match bytes with
  | code :: len :: rest =>
    if code = 0#8 then
      match rest with
      | [] => .incompleteFrame p
      | chk :: more => .fetch p len chk more.length
    else if 120 < len.toNat then .badFrame p .overlong
    else if rest.length < len.toNat + 1 then .incompleteFrame p
    else if rest.getD len.toNat 0#8 = crc8 (code :: len :: rest.take len.toNat) then
      readFrame p code.toNat (rest.take len.toNat)
    else .badFrame p .badCheck
  | _ => .incompleteFrame p

end Sys2Proof
end

