-- ==== Sys2Proof/Config.lean ====
section
/-! DEFINITION. The free values of the model: what the manual gives no value for, though the part goes on. Each
is an opaque constant without a body, so nothing can be proved of its value. -/

namespace Sys2Proof

/-- The 4-byte field that carries a figure outside the range of its 4 bytes: a FLARE value of 2³² kW or more, an
EXPORT DEVIATION value or a READ INTERVAL deviation outside the signed 32-bit range, or the seconds of LINK RESTORED
(R25) where a backward adjustment has made them negative, or the end of an account that lies past the last station time
(R139). The manual gives the field 4 bytes (R189, notice record, section 9.3) and states no result there. Free value;
assumptions 20, 48 and 58. -/
opaque Config.wideWord : Int → BitVec 32

/-- The station time that a tick boundary gives a clock standing at 4,294,967,295, the last value of its range
(chapter 10.1). The manual states no wrap. Free value, drawn with the model's counter; assumption 21. -/
opaque Config.timeAfterLast : Nat → Nat

/-- How many seconds a forward adjustment by a step moves a clock that stands at a time, when the move that R180 gives
would pass 4,294,967,295, the last value of station time (chapter 10.1). The manual states no result there. Free value,
brought within that range where it is read; assumption 65. -/
opaque Config.moveToLast : Nat → Int → Nat

/-- The generation of an image committed over one of generation 4,294,967,294, the highest that R167 admits, for which R10
names no successor. Free value, brought within 1 to 4,294,967,294 where it is read; assumption 66. -/
opaque Config.generationAfterLast : Nat → Nat

/-- The choice among the items that break a condition of R14: the manual reports "the item code and index at
which the check found it" and does not say which of the items that the failing clause relates that is. Free value;
assumption 22. -/
opaque Config.conditionPick : List Int → Nat

/-- What READ CONSUMER reports as its ninth item (last frame number and disposition, 5 bytes) for entry `e` when
no frame has run since the last start: R114 states no value there and no absence mark. Free value; assumption 23. -/
opaque Config.unreportedFrame : Nat → BitVec 40

/-- The checkpoint sequence number that the last restart summary reports when no checkpoint was good (R187).
Free value; assumption 24. -/
opaque Config.noCheckpointSequence : BitVec 32

/-- How many units a record program has written when a store clear stops it "after its current unit" (R164): the
manual fixes the rule, not the instant. Free value, drawn with the model's counter; assumption 25. -/
opaque Config.unitsBeforeClear : Nat → Nat

/-- What READ RECORD reports as the record sequence number of a void record of fewer than 5 units, by sector and unit:
such a span does not reach the bytes that hold the number (R165, R172). Free value; assumption 32. -/
opaque Config.shortVoidSequence : Nat → Nat → BitVec 32

end Sys2Proof
end

