-- ==== Sys2Proof/Machine/Cells.lean ====
section
/-! DEFINITION. The bytes of the non-volatile array (R153): 64 sectors of 128 units of 32 bytes. The array is held
as address and byte pairs in one canonical form: addresses strictly rising, no entry equal to the erased byte. -/

namespace Sys2Proof.Machine

/-- An erased byte reads FFh (R153). -/
def erasedByte : Byte := 0xFF#8

/-- The canonical form. -/
def Cells.wf : List Host.Cell → Bool
  | [] => true
  | (a, v) :: m => v != erasedByte && m.all (fun c => decide (a < c.1)) && Cells.wf m

/-- The byte at an address. -/
def readCell : List Host.Cell → Nat → Byte
  | [], _ => erasedByte
  | (b, w) :: m, a => if a = b then w else readCell m a

/-- The array with the byte at an address replaced; keeps the canonical form. -/
def writeCell : List Host.Cell → Nat → Byte → List Host.Cell
  | [], a, v => if v = erasedByte then [] else [(a, v)]
  | (b, w) :: m, a, v =>
    if a < b then (if v = erasedByte then (b, w) :: m else (a, v) :: (b, w) :: m)
    else if a = b then (if v = erasedByte then m else (a, v) :: m)
    else (b, w) :: writeCell m a v

/-- First address of a sector. -/
def sectorBase (sector : Nat) : Nat := sector * 4096

/-- First address of a unit. -/
def unitBase (sector unit : Nat) : Nat := sector * 4096 + unit * 32

/-- `n` bytes from an address on. -/
def readBytes (m : List Host.Cell) (a : Nat) : Nat → List Byte
  | 0 => []
  | n + 1 => readCell m a :: readBytes m (a + 1) n

/-- Bytes put into place from an address on. -/
def writeBytes (m : List Host.Cell) (a : Nat) : List Byte → List Host.Cell
  | [] => m
  | b :: bs => writeBytes (writeCell m a b) (a + 1) bs

/-- Bytes programmed from an address on: each byte keeps every bit that the written byte does not clear (R153). -/
def programBytes (m : List Host.Cell) (a : Nat) : List Byte → List Host.Cell
  | [] => m
  | b :: bs => programBytes (writeCell m a (readCell m a &&& b)) (a + 1) bs

/-- Every byte from `lo` to `hi - 1` is erased. -/
def blankRange (m : List Host.Cell) (lo hi : Nat) : Bool :=
  m.all fun c => c.2 == erasedByte || decide (c.1 < lo) || decide (hi ≤ c.1)

/-- Every byte of a sector is FFh. -/
def sectorBlank (m : List Host.Cell) (sector : Nat) : Bool :=
  blankRange m (sectorBase sector) (sectorBase (sector + 1))

/-- A sector erase that verifies returns every byte of the sector to FFh (R153). -/
def eraseSector (m : List Host.Cell) (sector : Nat) : List Host.Cell :=
  m.filter fun c => decide (c.1 < sectorBase sector) || decide (sectorBase (sector + 1) ≤ c.1)

/-- The array with a sector left holding the given bytes from its first byte on, FFh after them: what an erase that
fails or is cut short leaves. -/
def leaveSector (m : List Host.Cell) (sector : Nat) (left : List Byte) : List Host.Cell :=
  writeBytes (eraseSector m sector) (sectorBase sector) (left.take 4096)

/-- What a unit program that does not finish leaves in a unit: each byte has some of the bits cleared that the
written byte clears, `partly` saying which stay (R153). Units are 32 bytes. -/
def tearUnit (m : List Host.Cell) (a : Nat) (written partly : List Byte) : List Host.Cell :=
  programBytes m a (List.zipWith (fun w p => w ||| p) (written.take 32) (partly ++ List.replicate 32 erasedByte))

/-- Cut a program short after `k` whole units, with unit `k` torn. -/
def tearProgram (m : List Host.Cell) (a : Nat) (written : List Byte) (k : Nat) (partly : List Byte) : List Host.Cell :=
  tearUnit (programBytes m a (written.take (32 * k))) (a + 32 * k) (written.drop (32 * k)) partly

end Sys2Proof.Machine
end

