-- ==== Sys2Proof/Machine/State.lean ====
section
/-! DEFINITION. The state of the part, block by block as 00_scope.md ("Block Overview") lists who owns what, and
the state right after reset. Plain data throughout. Fields the manual does not name (the command queue, marks that
say an event is due, the counter of free values) say so. -/

namespace Sys2Proof.Machine

/-- No step of this model faults: the manual names no event that stops the part with an error. -/
inductive Fault where
  deriving DecidableEq, Repr

/-- Why a step has no meaning. -/
inductive Refusal where
  /-- raised by `exec` alone, for a row of the opcode table that has no meaning yet; safe, since it only stops -/
  | notModelled (mnemonic : String)
  deriving DecidableEq, Repr

/-! ### Party ports (chapter 11) -/

/-- Result and fetch status codes (R189). -/
inductive Result where
  | ok | clamped | denied | range | state | tooLate | mismatch | gone | unknown | frame
  deriving DecidableEq, Repr

/-- The notice kinds (section 11.3), in code order from 1. -/
inductive NoticeKind where
  | grant | unresponsive | flare | holderBand | declarationStale | declarationFallback | slotSubstituted
  | slotRestored | pulseMismatch | linkBreak | linkRestored | linkOverrun | flagChanged | exportDeviation
  | periodClosed | periodExtended | recordWritten | tariffStaged | tariffApplied | tariffLapsed | storeDefect
  | totalRollover | timeAdjusted | restarted | queueHalf | queueFull
  deriving DecidableEq, Repr

/-- A notice record (section 11.3): 12 bytes. -/
structure Notice where
  kind : NoticeKind
  /-- subject index, 0 to 255 -/
  subject : Nat
  /-- station time of posting -/
  time : Nat
  /-- the value field, signed where the kind's rule says so -/
  value : BitVec 32
  /-- bit 15 of the marks field -/
  suspect : Bool
  /-- bits 14 to 8 of the marks field, 0 to 127 -/
  marks : Nat
  /-- bits 7 to 0 of the marks field -/
  kindByte : Nat
  deriving DecidableEq, Repr

/-- A response held in a slot (R191): the DROPPED bit as placed, the result, the data. -/
structure Response where
  dropped : Bool
  result : Result
  data : List Byte
  deriving DecidableEq, Repr

/-- The response slot (R191). -/
inductive ResponseSlot where
  | idle
  | working
  | ready (r : Response)
  deriving DecidableEq, Repr

/-- One Party Port Unit (R191 to R197). ATTN is computed from the queue and the slot (`Port.attn`, R193). -/
structure Port where
  slot : ResponseSlot
  /-- the dropped mark (R191) -/
  dropped : Bool
  /-- the notice queue, oldest first (R196) -/
  queue : List Notice
  /-- the half mark: armed or not (R196) -/
  halfArmed : Bool
  /-- the dropping mark (R196) -/
  dropping : Bool
  /-- the notice filter, a filter set (R195) -/
  filter : BitVec 32
  /-- MODEL'S OWN: the response frame bytes clocked out on SDO in the port's last transaction; the line carries
  FFh at every other byte (R189) -/
  dataOut : List Byte
  deriving DecidableEq, Repr

/-! ### The exchange station (chapter 1) -/

/-- The station states (R6). -/
inductive StationState where
  | starting | blank | operating | reconfiguring
  deriving DecidableEq, Repr

/-- A configuration image (R10): its 470 values in the order of the canonical form (R13). -/
structure Image where
  values : List Int
  deriving DecidableEq, Repr

/-- An image with its generation number (R10). -/
structure Programmed where
  generation : Nat
  image : Image
  deriving DecidableEq, Repr

/-- A consent window (R19, R20): the marks, and the seconds left when a window is open. -/
structure ConsentWindow where
  marks : Table Bool 3
  left : Option Nat
  deriving DecidableEq, Repr

/-- How far a commit has come (R16). -/
inductive CommitPhase where
  /-- the target sector is listed for erase (R167, step 1) -/
  | erasingTarget
  /-- the configuration program is waiting or being served (R16, step 1) -/
  | programming
  /-- the image is in force for restarts; the other sector is listed for erase (R16, steps 2 and 3) -/
  | erasingOther
  /-- MODEL'S OWN: the erase is done while a tick is being integrated; the entry follows that tick (R41) -/
  | entering
  deriving DecidableEq, Repr

/-- A commit in progress (R16): the party whose APPROVE waits, the target sector, the phase. -/
structure Commit where
  approver : Party
  target : Nat
  phase : CommitPhase
  deriving DecidableEq, Repr

/-- Station state, images, approvals and consents (chapter 1). -/
structure Station where
  state : StationState
  /-- the image in force (R10) -/
  inForce : Option Programmed
  /-- the edit image (R10) -/
  edit : Option Image
  approvals : Table Bool 3
  /-- the commit-in-progress mark and what stands behind it (R16) -/
  commit : Option Commit
  recommission : ConsentWindow
  clearStore : ConsentWindow
  deriving DecidableEq, Repr

/-! ### Sensor link and slots (chapter 2) -/

/-- The character assembler (R22). -/
inductive Assembler where
  | hunting
  /-- the character expected next (2 to 7), the characters held from character 2 on, the spoiled mark -/
  | assembling (position : Nat) (held : List Byte) (spoiled : Bool)
  deriving DecidableEq, Repr

/-- An entry of the reading queue (R26). -/
structure Reading where
  slot : Fin 24
  value : Int
  fault : Bool
  uncalibrated : Bool
  deriving DecidableEq, Repr

/-- Slot states (section 2.2). -/
inductive SlotState where
  | never | fresh | substituted
  deriving DecidableEq, Repr

/-- Substitution causes (section 2.2). -/
inductive Cause where
  | age | fault | range | restart
  deriving DecidableEq, Repr

/-- The running fields of a slot record (section 2.2). The value in use is computed by `State.slotValue`: the last
good value in FRESH, and by R28 outside FRESH. -/
structure Slot where
  state : SlotState
  lastGood : Option Int
  goodAt : Option Nat
  age : Nat
  uncalibrated : Bool
  cause : Option Cause
  /-- MODEL'S OWN: the ageing step of the latest second boundary is still to be taken at this slot (R32) -/
  ageDue : Bool
  deriving DecidableEq, Repr

/-- The Sensor Link Receiver (section 2.1, section 2.2). -/
structure Sensor where
  assembler : Assembler
  /-- the link state: UP when true -/
  linkUp : Bool
  /-- the station time of the break that took the link down (R24) -/
  breakAt : Nat
  /-- a detected break still stands: the line has not returned to mark (R24) -/
  breakStanding : Bool
  /-- the reading queue, head first (R26) -/
  queue : List Reading
  /-- the overrun report mark, armed when true (R26) -/
  overrunArmed : Bool
  slots : Table Slot 24
  deriving DecidableEq, Repr

/-! ### Pulse inputs (section 2.5) -/

/-- A rising edge not yet qualified or rejected: its stamp, and the minimum width in force when it rose (R39). -/
structure Edge where
  stamp : Nat
  width : Nat
  /-- MODEL'S OWN: the milliseconds the input has been high since this edge, counted up to 60,000 (assumption 47) -/
  since : Nat
  deriving DecidableEq, Repr

/-- One pulse input (section 2.5). -/
structure PulseInput where
  /-- the tick count (R36) -/
  count : Nat
  edge : Option Edge
  /-- the latest capture stamp (R37) -/
  latest : Option Nat
  /-- the previous capture stamp (R37) -/
  previous : Option Nat
  /-- MODEL'S OWN: the milliseconds since the latest capture stamp, counted up to 60,000 (R37, assumption 47) -/
  since : Nat
  deriving DecidableEq, Repr

/-- The comparison window of a stream with its DOUBTFUL condition (R38). -/
structure CheckWindow where
  main : Nat
  check : Nat
  ticks : Nat
  doubtful : Bool
  deriving DecidableEq, Repr

/-- The Pulse Counter Array. -/
structure Pulses where
  inputs : Table PulseInput 8
  windows : Table CheckWindow 8
  deriving DecidableEq, Repr

/-! ### Fiscal integrator (chapter 3) -/

/-- The last tick integrated for a stream and its conditions (section 3.1). -/
structure LastTick where
  label : Nat
  increment : Nat
  carry : Nat
  substituted : Bool
  degraded : Bool
  reverse : Bool
  deriving DecidableEq, Repr

/-- The running fields of a stream record (section 3.1). -/
structure Stream where
  /-- whole kWh carried, modulo 10⁹ -/
  total : Nat
  /-- µWh not yet carried -/
  residual : Nat
  frameSum : Nat
  frameAverage : Nat
  errorSeconds : Nat
  reverseSeconds : Nat
  last : Option LastTick
  deriving DecidableEq, Repr

/-- The Fiscal Integrator. -/
structure Fiscal where
  streams : Table Stream 8
  /-- the label of the tick in integration: raised, its snapshot not yet ended (R40, R41) -/
  tick : Option Nat
  deriving DecidableEq, Repr

/-! ### Declarations (chapter 4) -/

inductive DeclState where
  | fresh | stale | fallback
  deriving DecidableEq, Repr

/-- What the last accepted DECLARE gave (R60): present or absent together. -/
structure Declared where
  value : Nat
  lifetime : Nat
  time : Nat
  deriving DecidableEq, Repr

/-- A declaration record (R60). -/
structure Declaration where
  state : DeclState
  declared : Option Declared
  age : Nat
  /-- MODEL'S OWN: the ageing step of the latest second boundary is still to be taken here (R63, R64) -/
  ageDue : Bool
  deriving DecidableEq, Repr

/-! ### Gas allocator (chapters 4, 5, 6) -/

/-- A station flag (R67). -/
structure Flag where
  set : Bool
  changedAt : Option Nat
  deriving DecidableEq, Repr

inductive ConsumerState where
  | out | ready | running | changing | unresponsive | tripped
  deriving DecidableEq, Repr

/-- Limits in force (R96). -/
structure Limits where
  minimum : Nat
  maximum : Nat
  ramp : Nat
  threshold : Nat
  deriving DecidableEq, Repr

/-- The running fields of a consumer record (R96). -/
structure Consumer where
  state : ConsumerState
  limits : Limits
  confirmed : Nat
  pending : Option Nat
  posted : Option Nat
  id : Nat
  retry : Nat
  /-- seconds left before the next expiry; an expiry is due at 0 in CHANGING (R100) -/
  timer : Nat
  cap : Option Nat
  parked : Bool
  deriving DecidableEq, Repr

inductive HolderBand where
  | lowlow | low | normal | high | highhigh
  deriving DecidableEq, Repr

/-- WALKED, or SKIPPED with its reason (R80, R93). -/
inductive Disposition where
  | walked | absent | tripped | held | parked | ineligible | shed
  deriving DecidableEq, Repr

/-- The outcome of one entry in the frame summary (R93). -/
structure EntryOutcome where
  disposition : Disposition
  declValue : Nat
  declState : DeclState
  share : Nat
  /-- amount passed and the alternate's index -/
  passedOut : Option (Nat × Nat)
  passedIn : Nat
  request : Option Nat
  target : Option Nat
  grant : Option Nat
  trim : Bool
  deriving DecidableEq, Repr

/-- The frame summary (R93). -/
structure FrameSummary where
  number : Nat
  label : Nat
  supply : Nat
  level : Int
  holderCV : Int
  band : HolderBand
  holderTerm : Int
  distributable : Nat
  held : Nat
  /-- recovered heat; absent when no stream is named -/
  recovered : Option Nat
  heatDemand : Nat
  heatState : DeclState
  heatFuel : Nat
  heatUnplaced : Nat
  powerFuel : Nat
  powerUnplaced : Nat
  remainder : Nat
  flare : Nat
  pointers : Table (Fin 12) 8
  outcomes : Table EntryOutcome 12
  deriving DecidableEq, Repr

/-- The Gas Allocator. -/
structure Allocator where
  frameNumber : Nat
  pointers : Table (Fin 12) 8
  band : HolderBand
  flare : Nat
  reportedFlare : Nat
  summary : Option FrameSummary
  flags : Table Flag 8
  consumers : Table Consumer 12
  /-- the label of the tick that completed a frame the allocator has not yet run (R73) -/
  frameDue : Option Nat
  deriving DecidableEq, Repr

/-! ### Export tracker (chapter 7) -/

structure Nomination where
  interval : Nat
  kwh : Nat
  deriving DecidableEq, Repr

/-- The last power duty fuel with its frame number (R117). -/
structure DutyFuel where
  fuel : Nat
  frame : Nat
  deriving DecidableEq, Repr

/-- The Export Tracker (R117). -/
structure Tracker where
  running : Nat
  n : Nat
  carried : Bool
  outage : Bool
  e : Nat
  behind : Bool
  fuel : Option DutyFuel
  queue : List Nomination
  deriving DecidableEq, Repr

/-! ### Billing unit (chapter 8) -/

/-- An interval entry (R124, R127, section 9.3). -/
structure IntervalEntry where
  offset : Nat
  n : Nat
  e : Nat
  carried : Bool
  outage : Bool
  deviation : Bool
  folded : Bool
  folds : Nat
  deriving DecidableEq, Repr

/-- Per-band figures of an account (R139). -/
structure BandAccount where
  normal : Nat
  degraded : Nat
  charge : Nat
  deriving DecidableEq, Repr

/-- An account (R139). -/
structure Account where
  period : Nat
  start : Nat
  finish : Nat
  identity : Nat
  bandCount : Nat
  bands : Table BandAccount 6
  substituted : Nat
  errorSeconds : Nat
  outageSeconds : Nat
  entries : List IntervalEntry
  extended : Bool
  recommission : Bool
  outage : Bool
  unwarned : Bool
  suspect : Bool
  deriving DecidableEq, Repr

/-- A band of a tariff in force, with its degraded price (R135). -/
structure PricedBand where
  band : Band
  degraded : Nat
  deriving DecidableEq, Repr

/-- A tariff in force (R135). -/
structure Tariff where
  identity : Nat
  bands : List PricedBand
  percentage : Nat
  deriving DecidableEq, Repr

/-- A staged change (section 8.5). -/
structure Staged where
  identity : Nat
  effective : Nat
  bands : List Band
  percentage : Nat
  consented : Bool
  stagedAt : Nat
  deriving DecidableEq, Repr

/-- The running state of a contract (section 8.1). -/
structure Contract where
  tariff : Option Tariff
  staged : Option Staged
  period : Nat
  nextBoundary : Nat
  opened : Account
  closing : Option Account
  deriving DecidableEq, Repr

/-- The Billing Unit. -/
structure Billing where
  contracts : Table Contract 4
  /-- the tariff identity counter: the last identity issued -/
  counter : Nat
  deriving DecidableEq, Repr

/-! ### Record store (chapter 9) -/

/-- A period record as formed from a closing account (R157). -/
structure PeriodRecord where
  contract : Fin 4
  /-- kind RECORD when true, else PRICED -/
  isRecord : Bool
  seller : Nat
  buyer : Nat
  sequence : Nat
  account : Account
  deriving DecidableEq, Repr

inductive RecState where
  | erased | filling | full | releasable | erasing | retired
  deriving DecidableEq, Repr

/-- A sector of the record area (R156). -/
structure RecSector where
  state : RecState
  retiring : Bool
  fails : Nat
  deriving DecidableEq, Repr

/-- What the index holds of a valid record (R156). -/
structure ValidRecord where
  contract : Nat
  period : Nat
  seller : Nat
  buyer : Nat
  sequence : Nat
  sellerMark : Bool
  buyerMark : Bool
  deriving DecidableEq, Repr

/-- An entry of the record index (R156); void when `valid` is `none`. -/
structure IndexEntry where
  sector : Nat
  unit : Nat
  length : Nat
  valid : Option ValidRecord
  deriving DecidableEq, Repr

inductive CkptState where
  | erased | erasing | held | retired
  deriving DecidableEq, Repr

/-- What a checkpoint keeps of a stream (R58). -/
structure StreamKept where
  total : Nat
  residual : Nat
  errorSeconds : Nat
  reverseSeconds : Nat
  doubtful : Bool
  deriving DecidableEq, Repr

/-- What a checkpoint keeps of the Record Store (R168). -/
structure StoreKept where
  writeSector : Nat
  nextUnit : Nat
  sequence : Nat
  retired : List Nat
  retiring : List Nat
  retiredCkpts : List Nat
  abandoned : Option Nat
  deriving DecidableEq, Repr

/-- A checkpoint (R168). The manual lays out none of its bytes; it is held as the figures it holds. -/
structure Checkpoint where
  sequence : Nat
  emergency : Bool
  time : Nat
  label : Nat
  streams : Table StreamKept 8
  lastGood : Table (Option Int) 24
  consumers : Table Consumer 12
  frameNumber : Nat
  pointers : Table (Fin 12) 8
  partyFlags : Table Flag 4
  tracker : Tracker
  billing : Billing
  store : StoreKept
  deriving DecidableEq, Repr

/-- What the array holds in a checkpoint sector (R169, R171). -/
inductive CkptContent where
  | blank
  | good (c : Checkpoint) (warned : Bool)
  | bad (sequence : Option Nat)
  deriving DecidableEq, Repr

/-- A sector of the checkpoint area. -/
structure CkptSector where
  state : CkptState
  content : CkptContent
  deriving DecidableEq, Repr

/-- An operation of the array queue (R154). `gone`: a store clear has overtaken the waiting operation (R164). -/
inductive ArrayOp where
  | record (r : PeriodRecord)
  | mark (p : Party) (sector unit : Nat) (bySeller : Bool) (contract period : Nat) (gone : Bool)
  | read (p : Party) (entry : IndexEntry) (part : Nat) (gone : Bool)
  | checkpoint (c : Checkpoint)
  | config (sector generation : Nat) (image : Image)
  deriving DecidableEq, Repr

/-- What the array is doing (R153, R154). -/
inductive Activity where
  | record (r : PeriodRecord) (sector unit : Nat)
  | mark (p : Party) (sector unit : Nat) (bySeller : Bool) (contract period : Nat) (gone : Bool)
  | read (p : Party) (entry : IndexEntry) (part : Nat) (gone : Bool)
  | checkpoint (c : Checkpoint) (target : Nat)
  | config (sector generation : Nat) (image : Image)
  | erase (sector : Nat)
  deriving DecidableEq, Repr

/-- The Record Store (chapter 9). -/
structure Store where
  /-- the bytes of sectors 0, 1 and 10 to 63, as address and byte, in the canonical form of `Cells.wf`;
  an unlisted byte reads FFh (R153) -/
  cells : List Host.Cell
  /-- sectors 2 to 9 -/
  ckpts : Table CkptSector 8
  /-- sectors 10 to 63 -/
  sectors : Table RecSector 54
  index : List IndexEntry
  /-- the write position (R158), a sector number 10 to 63 and its next unit -/
  writeSector : Nat
  nextUnit : Nat
  /-- the record sequence counter (R157) -/
  sequence : Nat
  /-- the array queue, oldest first (R154) -/
  queue : List ArrayOp
  /-- the erase list, head first, sector numbers 0 to 63 (R154) -/
  eraseList : List Nat
  /-- what is being served -/
  current : Option Activity
  /-- the sector whose erase is suspended (R155) -/
  suspended : Option Nat
  /-- milliseconds of erase done in the sector being erased or suspended (R166) -/
  eraseMs : Nat
  /-- the configuration sector that holds the image in force (R16) -/
  imageSector : Option Nat
  /-- the sector a commit from BLANK targets, as the start-up read found it (R171) -/
  blankTarget : Nat
  /-- the last checkpoint sector j (R169) -/
  lastCkpt : Nat
  /-- the checkpoint sequence counter (R169) -/
  ckptSequence : Nat
  /-- a checkpoint that waits for the tick in integration (R58, R151): `true` when it is the emergency one -/
  gatherDue : Option Bool
  /-- PFW has been asserted since the last restart (R170) -/
  pfw : Bool
  /-- the sector whose erase the power-fail warning abandoned (R170) -/
  abandoned : Option Nat
  /-- the sectors a store clear listed that have not left the erase list; `none` when none is in progress (R164) -/
  clearing : Option (List Nat)
  deriving DecidableEq, Repr

/-! ### Station clock (chapter 10) -/

/-- A pending adjustment (chapter 10.1). -/
structure PendingStep where
  step : Int
  postedAt : Nat
  deriving DecidableEq, Repr

/-- The last adjustment (chapter 10.1). -/
structure Adjustment where
  requested : Int
  applied : Int
  time : Nat
  first : Party
  second : Party
  deriving DecidableEq, Repr

inductive BackupResult where
  | valid | lost | behind
  deriving DecidableEq, Repr

inductive RestartCause where
  | powerUp | reset
  deriving DecidableEq, Repr

/-- The last restart summary (R187). The backup result is absent after a restart to BLANK, which does not take
step 4 of R183. -/
structure RestartSummary where
  cause : RestartCause
  warned : Bool
  noCheckpoint : Bool
  backup : Option BackupResult
  sequence : Option Nat
  label : Nat
  resume : Nat
  outage : Nat
  deriving DecidableEq, Repr

/-- The Station Clock. -/
structure Clock where
  /-- station time as the part shows it -/
  time : Nat
  /-- station time as the backup domain counts it; it differs from `time` only between the resume point of a
  restart and the first tick after it (R188) -/
  domain : Nat
  /-- backup validity -/
  valid : Bool
  suspect : Bool
  suspectAt : Nat
  /-- the millisecond counter -/
  millis : Nat
  /-- the tick timer's phase: milliseconds since its latest boundary -/
  phase : Nat
  adjustments : Table (Option PendingStep) 3
  lastAdjustment : Option Adjustment
  lastRestart : Option RestartSummary
  /-- the frame timer: the ticks counted, and the frame length it was started with; `none` when stopped (R73) -/
  frameTimer : Option (Nat × Nat)
  /-- ticks integrated since the last checkpoint was begun (R168) -/
  ckptTicks : Nat
  /-- label of the last tick integrated; after a restart, of the resume point (R58, R168) -/
  lastLabel : Nat
  deriving DecidableEq, Repr

/-- A restart under way (R183): what STARTING has found and still needs. -/
structure Restarting where
  cause : RestartCause
  /-- the restart leads to BLANK: no configuration sector holds an image -/
  toBlank : Bool
  warned : Bool
  noCheckpoint : Bool
  backup : Option BackupResult
  sequence : Option Nat
  /-- the label t_c of the restored checkpoint, 0 without one -/
  label : Nat
  /-- the resume point T, once fixed; catch-up has then been taken (R186, R188) -/
  resume : Option Nat
  deriving DecidableEq, Repr

/-- The supplies and control pins (section 11.5). The PFW assertion is kept in `Store.pfw`. -/
structure Board where
  /-- VDD is present -/
  mainOn : Bool
  /-- nRESET is held low -/
  resetLow : Bool
  deriving DecidableEq, Repr

/-- The whole part. -/
structure State where
  /-- MODEL'S OWN: the commands that wait, first in, first out -/
  pending : List Instr
  board : Board
  ports : Table Port 3
  station : Station
  sensor : Sensor
  pulses : Pulses
  fiscal : Fiscal
  decls : Table Declaration 13
  alloc : Allocator
  tracker : Tracker
  billing : Billing
  store : Store
  clock : Clock
  /-- the restart under way, in STARTING -/
  startup : Option Restarting
  /-- MODEL'S OWN: how many free values have been drawn -/
  free : Nat
  deriving DecidableEq, Repr

/-! ### Values at a start -/

/-- The every-kind-admitted filter 00FFFFFEh (R195). -/
def Port.allKinds : BitVec 32 := 0x00FFFFFE#32

/-- A port when STARTING begins (R199), with the filter the restart gives it. -/
def Port.atStart (filter : BitVec 32) : Port :=
  ⟨.idle, false, [], true, false, filter, []⟩

/-- No window open, no mark set. -/
def ConsentWindow.closed : ConsentWindow := ⟨Table.replicate 3 false, none⟩

/-- A slot that is NEVER (R35). -/
def Slot.atStart : Slot := ⟨.never, none, none, 0, false, none, false⟩

/-- The receiver and slot table without any checkpointed value (R35). -/
def Sensor.atStart : Sensor := ⟨.hunting, true, 0, false, [], true, Table.replicate 24 Slot.atStart⟩

/-- A pulse input after restart (R39). -/
def PulseInput.atStart : PulseInput := ⟨0, none, none, none, 0⟩

/-- A check window after restart (R39). -/
def CheckWindow.atStart : CheckWindow := ⟨0, 0, 0, false⟩

/-- The Pulse Counter Array at entry to OPERATING from BLANK (R39). -/
def Pulses.atStart : Pulses := ⟨Table.replicate 8 PulseInput.atStart, Table.replicate 8 CheckWindow.atStart⟩

/-- A stream record at entry to OPERATING from BLANK (R59). -/
def Stream.atStart : Stream := ⟨0, 0, 0, 0, 0, 0, none⟩

/-- The Fiscal Integrator at entry to OPERATING from BLANK (R59). -/
def Fiscal.atStart : Fiscal := ⟨Table.replicate 8 Stream.atStart, none⟩

/-- A declaration at every start (R66). -/
def Declaration.atStart : Declaration := ⟨.fallback, none, 0, false⟩

/-- A flag with no change yet (R71). -/
def Flag.atStart : Flag := ⟨false, none⟩

/-- The limits of an absent entry; the manual gives none (assumption 2). -/
def Limits.none : Limits := ⟨0, 0, 0, 0⟩

/-- An absent consumer (R17, R97). -/
def Consumer.absent : Consumer := ⟨.out, Limits.none, 0, none, none, 0, 0, 0, none, false⟩

/-- The allocator without consumers (R71, R95). -/
def Allocator.atStart : Allocator :=
  ⟨0, Table.replicate 8 0, .normal, 0, 0, none, Table.replicate 8 Flag.atStart, Table.replicate 12 Consumer.absent, none⟩

/-- The tracker with nothing in it (R131). -/
def Tracker.atStart : Tracker := ⟨0, 0, true, false, 0, false, none, []⟩

/-- An account with nothing in it. -/
def Account.empty : Account :=
  ⟨0, 0, 0, 0, 0, Table.replicate 6 ⟨0, 0, 0⟩, 0, 0, 0, [], false, false, false, false, false⟩

/-- A contract of which no state is kept (R152, "After restart to BLANK"). -/
def Contract.empty : Contract := ⟨none, none, 0, 0, Account.empty, none⟩

/-- The Billing Unit when no contract state is kept (R152). -/
def Billing.atStart : Billing := ⟨Table.replicate 4 Contract.empty, 0⟩

/-- The store with an erased array (R171, R173): sector 10 is the write sector, j is sector 9. -/
def Store.erasedArray : Store where
  cells := []
  ckpts := Table.replicate 8 ⟨.erased, .blank⟩
  sectors := (Table.replicate 54 ⟨.erased, false, 0⟩).set 0 ⟨.filling, false, 0⟩
  index := []
  writeSector := 10
  nextUnit := 0
  sequence := 0
  queue := []
  eraseList := []
  current := none
  suspended := none
  eraseMs := 0
  imageSector := none
  blankTarget := 0
  lastCkpt := 9
  ckptSequence := 0
  gatherDue := none
  pfw := false
  abandoned := none
  clearing := none

/-- The clock when no station time is kept. -/
def Clock.atStart : Clock :=
  ⟨0, 0, false, false, 0, 0, 0, Table.replicate 3 none, none, none, none, 0, 0⟩

/-- The part right after reset: a restart by RESET has begun, the array is erased as delivered (assumption 1), and
STARTING has found no configuration image (R6, R171, R183), so departure will lead to BLANK. -/
def State.reset : State where
  pending := []
  board := ⟨true, false⟩
  ports := Table.replicate 3 (Port.atStart Port.allKinds)
  station := ⟨.starting, none, none, Table.replicate 3 false, none, ConsentWindow.closed, ConsentWindow.closed⟩
  sensor := Sensor.atStart
  pulses := Pulses.atStart
  fiscal := Fiscal.atStart
  decls := Table.replicate 13 Declaration.atStart
  alloc := Allocator.atStart
  tracker := Tracker.atStart
  billing := Billing.atStart
  store := Store.erasedArray
  clock := Clock.atStart
  startup := some ⟨.reset, true, false, false, none, none, 0, none⟩
  free := 0

end Sys2Proof.Machine
end

