-- ==== Sys2Proof/Machine/Image.lean ====
section
/-! DEFINITION. The configuration image (sections 1.4 and 1.5): the item table, one item read and written, the
canonical form and check word, the fields the blocks read, and the consistency conditions of R14. -/

namespace Sys2Proof.Machine

/-- Which values an item takes. -/
inductive ValueSet where
  | range (lo hi : Int)
  | rangeOr (lo hi other : Int)
  | oneOf (values : List Int)
  /-- 0 ALWAYS, 16 + n, 32 + n with n 0 to 7 (item 2Ah) -/
  | eligibility
  /-- a filter set with bits 0 and 24 to 31 clear (item 4Ch, R195) -/
  | filterSet
  deriving DecidableEq, Repr

/-- Whether an item takes a value. -/
def ValueSet.allows : ValueSet → Int → Bool
  | .range lo hi, v => decide (lo ≤ v ∧ v ≤ hi)
  | .rangeOr lo hi other, v => decide ((lo ≤ v ∧ v ≤ hi) ∨ v = other)
  | .oneOf values, v => values.contains v
  | .eligibility, v => decide (v = 0 ∨ (16 ≤ v ∧ v ≤ 23) ∨ (32 ≤ v ∧ v ≤ 39))
  | .filterSet, v => decide (0 ≤ v ∧ v ≤ 0xFFFFFE ∧ v % 2 = 0)

/-- A row of the item table. -/
structure Item where
  code : Nat
  /-- how many indices -/
  count : Nat
  values : ValueSet
  /-- the factory defaults by index; a single one stands for every index -/
  defaults : List Int
  /-- written in RECONFIGURING too (column W: BR) -/
  reconf : Bool
  deriving DecidableEq, Repr

/-- Items of streams, pulse inputs and slots. -/
def streamItems : List Item := [
  ⟨0x01, 8, .range 0 3, [0], true⟩,
  ⟨0x02, 8, .range 0 7, [0, 1, 2, 3, 4, 5, 6, 7], true⟩,
  ⟨0x03, 8, .range 1 100000, [1], true⟩,
  ⟨0x04, 8, .rangeOr 0 7 255, [255], true⟩,
  ⟨0x05, 8, .range 1 255, [10], true⟩,
  ⟨0x06, 8, .range 0 23, [0], true⟩,
  ⟨0x07, 8, .range 0 23, [1], true⟩,
  ⟨0x08, 8, .range 0 23, [2], true⟩,
  ⟨0x09, 8, .range 0 300, [20], true⟩,
  ⟨0x0A, 8, .range 0 1, [0], true⟩,
  ⟨0x0B, 8, .rangeOr 0 3 255, [255], true⟩,
  ⟨0x0C, 8, .range 1 100, [10], true⟩,
  ⟨0x10, 24, .range 0 3, [0], true⟩,
  ⟨0x11, 24, .range 1 60, [10], true⟩,
  ⟨0x12, 24, .range 0 1, [0], true⟩,
  ⟨0x13, 24, .range (-5000) 500000, [0], true⟩]

/-- Items of consumers. -/
def consumerItems : List Item := [
  ⟨0x20, 12, .rangeOr 0 1 255, [255], true⟩,
  ⟨0x21, 12, .range 0 7, [0], true⟩,
  ⟨0x22, 12, .range 0 3, [0], true⟩,
  ⟨0x23, 12, .range 0 2000000, [0], true⟩,
  ⟨0x24, 12, .range 0 2000000, [0], true⟩,
  ⟨0x25, 12, .range 1 2000000, [1000], true⟩,
  ⟨0x26, 12, .range 1 2000000, [1000], true⟩,
  ⟨0x27, 12, .range 0 2000000, [0], true⟩,
  ⟨0x28, 12, .range 0 2000000, [0], true⟩,
  ⟨0x29, 12, .rangeOr 0 11 255, [255], true⟩,
  ⟨0x2A, 12, .eligibility, [0], true⟩,
  ⟨0x2B, 12, .range 0 2000000, [0], true⟩]

/-- Items of contracts and commissioning tariffs. -/
def contractItems : List Item := [
  ⟨0x30, 4, .range 0 1, [0, 0, 0, 1], false⟩,
  ⟨0x31, 4, .range 0 2, [0, 0, 1, 1], false⟩,
  ⟨0x32, 4, .range 0 2, [1, 2, 2, 0], false⟩,
  ⟨0x33, 4, .range 1 31, [1], false⟩,
  ⟨0x34, 4, .range 0 23, [0], false⟩,
  ⟨0x35, 4, .range 0 20000, [0], true⟩,
  ⟨0x36, 4, .range 1 6, [1], false⟩,
  ⟨0x37, 24, .range 0 1439, [0], false⟩,
  ⟨0x38, 24, .range 0 1439, [0], false⟩,
  ⟨0x39, 24, .range 0 10000000, [0], false⟩,
  ⟨0x3A, 4, .range 0 100, [100], false⟩]

/-- Station-wide items and holder constants. -/
def stationItems : List Item := [
  ⟨0x40, 1, .range 5 60, [10], true⟩,
  ⟨0x41, 1, .oneOf [900, 1800, 3600], [1800], false⟩,
  ⟨0x42, 1, .range 0 3600, [600], true⟩,
  ⟨0x43, 1, .range 0 20, [5], true⟩,
  ⟨0x44, 1, .range 10 100, [85], true⟩,
  ⟨0x45, 1, .range 10 100, [35], true⟩,
  ⟨0x46, 1, .range 0 86399, [0], false⟩,
  ⟨0x47, 1, .range 0 2000000, [0], true⟩,
  ⟨0x48, 1, .rangeOr 0 7 255, [255], true⟩,
  ⟨0x49, 1, .oneOf [5, 10, 30, 60], [10], true⟩,
  ⟨0x4A, 1, .range 0 8, [8], true⟩,
  ⟨0x4B, 4, .range 0 2, [0], true⟩,
  ⟨0x4C, 3, .filterSet, [0xFFFFFE], true⟩,
  ⟨0x50, 1, .range 0 23, [22], true⟩,
  ⟨0x51, 1, .range 0 23, [23], true⟩,
  ⟨0x52, 1, .range 0 200000, [20000], true⟩,
  ⟨0x53, 1, .range 0 200000, [40000], true⟩,
  ⟨0x54, 1, .range 0 200000, [160000], true⟩,
  ⟨0x55, 1, .range 0 200000, [180000], true⟩,
  ⟨0x56, 1, .range 0 200000, [2000], true⟩,
  ⟨0x57, 1, .range 0 200000, [100000], true⟩,
  ⟨0x58, 1, .range 300 3600, [1200], true⟩,
  ⟨0x59, 1, .range 0 2000000, [200000], true⟩,
  ⟨0x5A, 1, .range 0 2000000, [100000], true⟩,
  ⟨0x5B, 1, .range 0 2000000, [5000], true⟩]

/-- The item table of section 1.4, in ascending item code. -/
def items : List Item := streamItems ++ consumerItems ++ contractItems ++ stationItems

/-- The row of an item code. -/
def findItem (code : Nat) : Option Item := items.find? fun it => it.code == code

/-- The place of an item's index 0 in the canonical order (R13). -/
def itemOffset (code : Nat) : List Item → Nat
  | [] => 0
  | it :: rest => if it.code = code then 0 else it.count + itemOffset code rest

/-- The factory defaults of one item at each of its indices. -/
def Item.defaultValues (it : Item) : List Int :=
  match it.defaults with
  | [v] => List.replicate it.count v
  | vs => vs

/-- The factory default image (R7). -/
def Image.factory : Image := ⟨items.flatMap Item.defaultValues⟩

/-- One item value of an image. -/
def Image.get (img : Image) (code index : Nat) : Int := img.values.getD (itemOffset code items + index) 0

/-- An image with one item value replaced. -/
def Image.put (img : Image) (code index : Nat) (v : Int) : Image :=
  ⟨img.values.set (itemOffset code items + index) v⟩

/-- One item value as a natural figure. -/
def Image.nat (img : Image) (code index : Nat) : Nat := (img.get code index).toNat

/-- The canonical byte form (R13). -/
def Image.canonical (img : Image) : List Byte := img.values.flatMap (beInt 4)

/-- The check word (R13). -/
def Image.checkWord (img : Image) : Nat := crc32 img.canonical

/-! ### The bytes of a configuration sector (R167) -/

/-- The 1888 bytes of a programmed image: generation, canonical form, check word. -/
def imageBytes (generation : Nat) (img : Image) : List Byte :=
  be 4 generation ++ img.canonical ++ be 4 img.checkWord

/-- The 470 values that a canonical form spells. -/
def valuesOf (m : List Host.Cell) (a : Nat) : Nat → List Int
  | 0 => []
  | n + 1 => ofBeInt 4 (readBytes m a 4) :: valuesOf m (a + 4) n

/-- What a configuration sector is found to be (R167). -/
inductive ConfigClass where
  | image (p : Programmed)
  | empty
  | damaged
  deriving DecidableEq, Repr

/-- IMAGE, EMPTY or DAMAGED (R167). -/
def classifyConfig (m : List Host.Cell) (sector : Nat) : ConfigClass :=
  if sectorBlank m sector then .empty
  else
    let base := sectorBase sector
    let generation := ofBe (readBytes m base 4)
    let word := ofBe (readBytes m (base + 1884) 4)
    if word = crc32 (readBytes m (base + 4) 1880) ∧ 1 ≤ generation ∧ generation ≤ 4294967294 then
      .image ⟨generation, ⟨valuesOf m (base + 4) 470⟩⟩
    else .damaged

/-! ### The fields the blocks read -/

/-- Stream kinds (R1). -/
inductive StreamKind where
  | absent | gas | heat | power
  deriving DecidableEq, Repr

/-- Slot kinds (R2). -/
inductive SlotKind where
  | temp | press | cv | level
  deriving DecidableEq, Repr

/-- Duties (R3). -/
inductive Duty where
  | works | heat | power | flexible
  deriving DecidableEq, Repr

/-- The eligibility conditions (section 4.4). -/
inductive Eligibility where
  | always
  | whenSet (flag : Nat)
  | whenClear (flag : Nat)
  deriving DecidableEq, Repr

/-- The party that a party code names. -/
def partyOf (code : Int) : Party := if code = 0 then .works else if code = 1 then .plant else .town

/-- The code of a party, which is also the number of its port (R5). -/
def partyCode : Party → Nat
  | .works => 0
  | .plant => 1
  | .town => 2

/-- The index of a party in a table of three. -/
def partyIndex : Party → Fin 3
  | .works => 0
  | .plant => 1
  | .town => 2

/-- The kind of a stream. -/
def Image.streamKind (img : Image) (i : Fin 8) : StreamKind :=
  match img.get 0x01 i.val with
  | 1 => .gas
  | 2 => .heat
  | 3 => .power
  | _ => .absent

/-- The stream is present. -/
def Image.present (img : Image) (i : Fin 8) : Bool := decide (img.streamKind i ≠ .absent)

/-- An index into a table of `n + 1`, from an item value that the item's range keeps below it. -/
def indexOf (n : Nat) (v : Int) : Fin (n + 1) := Fin.ofNat (n + 1) v.toNat

def Image.mainInput (img : Image) (i : Fin 8) : Fin 8 := indexOf 7 (img.get 0x02 i.val)
def Image.pulseWeight (img : Image) (i : Fin 8) : Nat := img.nat 0x03 i.val

/-- The check input of a stream, if it names one. -/
def Image.checkInput (img : Image) (i : Fin 8) : Option (Fin 8) :=
  if img.get 0x04 i.val = 255 then none else some (indexOf 7 (img.get 0x04 i.val))

def Image.mismatchLimit (img : Image) (i : Fin 8) : Nat := img.nat 0x05 i.val
def Image.slotA (img : Image) (i : Fin 8) : Fin 24 := indexOf 23 (img.get 0x06 i.val)
def Image.slotB (img : Image) (i : Fin 8) : Fin 24 := indexOf 23 (img.get 0x07 i.val)
def Image.slotC (img : Image) (i : Fin 8) : Fin 24 := indexOf 23 (img.get 0x08 i.val)
def Image.theta (img : Image) (i : Fin 8) : Int := img.get 0x09 i.val
def Image.supplyMark (img : Image) (i : Fin 8) : Bool := img.get 0x0A i.val == 1

/-- The contract a stream names, if any. -/
def Image.streamContract (img : Image) (i : Fin 8) : Option (Fin 4) :=
  if img.get 0x0B i.val = 255 then none else some (indexOf 3 (img.get 0x0B i.val))

def Image.minWidth (img : Image) (pin : Fin 8) : Nat := img.nat 0x0C pin.val

/-- The kind of a slot. -/
def Image.slotKind (img : Image) (i : Fin 24) : SlotKind :=
  match img.get 0x10 i.val with
  | 1 => .press
  | 2 => .cv
  | 3 => .level
  | _ => .temp

def Image.maxAge (img : Image) (i : Fin 24) : Nat := img.nat 0x11 i.val

/-- The substitution rule is FIXED; otherwise HOLD. -/
def Image.fixedRule (img : Image) (i : Fin 24) : Bool := img.get 0x12 i.val == 1

def Image.fixedValue (img : Image) (i : Fin 24) : Int := img.get 0x13 i.val

/-- The good range of a slot kind (R2). -/
def SlotKind.good : SlotKind → Int → Bool
  | .temp, v => decide (-5000 ≤ v ∧ v ≤ 20000)
  | .press, v => decide (50000 ≤ v ∧ v ≤ 500000)
  | .cv, v => decide (100 ≤ v ∧ v ≤ 15000)
  | .level, v => decide (0 ≤ v ∧ v ≤ 200000)

/-- The operating party of an entry; `none` for an absent entry (R3). -/
def Image.operator (img : Image) (e : Fin 12) : Option Party :=
  if img.get 0x20 e.val = 255 then none else some (partyOf (img.get 0x20 e.val))

def Image.rank (img : Image) (e : Fin 12) : Nat := (indexOf 7 (img.get 0x21 e.val)).val

/-- The duty of an entry. -/
def Image.duty (img : Image) (e : Fin 12) : Duty :=
  match img.get 0x22 e.val with
  | 1 => .heat
  | 2 => .power
  | 3 => .flexible
  | _ => .works

/-- The commissioning limits of an entry (R3). -/
def Image.limits (img : Image) (e : Fin 12) : Limits :=
  ⟨img.nat 0x23 e.val, img.nat 0x24 e.val, img.nat 0x25 e.val, img.nat 0x26 e.val⟩

def Image.hardMin (img : Image) (e : Fin 12) : Nat := img.nat 0x27 e.val
def Image.hardMax (img : Image) (e : Fin 12) : Nat := img.nat 0x28 e.val

/-- The alternate of an entry, if it names one. -/
def Image.alternate (img : Image) (e : Fin 12) : Option (Fin 12) :=
  if img.get 0x29 e.val = 255 then none else some (indexOf 11 (img.get 0x29 e.val))

/-- The eligibility condition of an entry. -/
def Image.eligibility (img : Image) (e : Fin 12) : Eligibility :=
  let v := img.nat 0x2A e.val
  if 32 ≤ v then .whenClear (v - 32) else if 16 ≤ v then .whenSet (v - 16) else .always

/-- The contract is the RECORD contract; otherwise PRICED (R4). -/
def Image.isRecord (img : Image) (c : Fin 4) : Bool := img.get 0x30 c.val == 1

def Image.seller (img : Image) (c : Fin 4) : Party := partyOf (img.get 0x31 c.val)
def Image.buyer (img : Image) (c : Fin 4) : Party := partyOf (img.get 0x32 c.val)
def Image.periodDays (img : Image) (c : Fin 4) : Nat := img.nat 0x33 c.val
def Image.startHour (img : Image) (c : Fin 4) : Nat := img.nat 0x34 c.val
def Image.tmin (img : Image) (c : Fin 4) : Int := img.get 0x35 c.val

/-- The bands of a commissioning tariff: index = contract × 6 + band (section 1.4). -/
def Image.bands (img : Image) (c : Fin 4) : List Band :=
  (List.range (img.nat 0x36 c.val)).map fun b =>
    ⟨img.nat 0x37 (c.val * 6 + b), img.nat 0x38 (c.val * 6 + b), img.nat 0x39 (c.val * 6 + b)⟩

def Image.percentage (img : Image) (c : Fin 4) : Nat := img.nat 0x3A c.val

/-- The RECORD contract: the first of kind RECORD (R14 allows one). -/
def Image.recordContract (img : Image) : Option (Fin 4) := (List.finRange 4).find? fun c => img.isRecord c

def Image.frameLength (img : Image) : Nat := img.nat 0x40 0
def Image.intervalLength (img : Image) : Nat := img.nat 0x41 0
def Image.gate (img : Image) : Nat := img.nat 0x42 0
def Image.tolerance (img : Image) : Nat := img.nat 0x43 0
def Image.heatEfficiency (img : Image) : Nat := img.nat 0x44 0
def Image.powerEfficiency (img : Image) : Nat := img.nat 0x45 0
def Image.dayOffset (img : Image) : Nat := img.nat 0x46 0

/-- The fallback value of a declaration (R60): item 2Bh of the entry, item 47h for HEAT DEMAND. -/
def Image.fallback (img : Image) (d : Fin 13) : Nat :=
  if d.val < 12 then img.nat 0x2B d.val else img.nat 0x47 0

/-- The recovered-heat stream, if named. -/
def Image.recoveredHeat (img : Image) : Option (Fin 8) :=
  if img.get 0x48 0 = 255 then none else some (indexOf 7 (img.get 0x48 0))

def Image.confirmationTime (img : Image) : Nat := img.nat 0x49 0
def Image.shedRank (img : Image) : Nat := img.nat 0x4A 0
def Image.flagOwner (img : Image) (f : Nat) : Party := partyOf (img.get 0x4B f)
def Image.defaultFilter (img : Image) (p : Party) : BitVec 32 := BitVec.ofInt 32 (img.get 0x4C (partyCode p))
def Image.levelSlot (img : Image) : Fin 24 := indexOf 23 (img.get 0x50 0)
def Image.cvSlot (img : Image) : Fin 24 := indexOf 23 (img.get 0x51 0)
def Image.holderLL (img : Image) : Int := img.get 0x52 0
def Image.holderLo (img : Image) : Int := img.get 0x53 0
def Image.holderHi (img : Image) : Int := img.get 0x54 0
def Image.holderHH (img : Image) : Int := img.get 0x55 0
def Image.hysteresis (img : Image) : Int := img.get 0x56 0
def Image.holderTarget (img : Image) : Int := img.get 0x57 0
def Image.tau (img : Image) : Nat := img.nat 0x58 0
def Image.hmax (img : Image) : Nat := img.nat 0x59 0
def Image.imax (img : Image) : Nat := img.nat 0x5A 0
def Image.flareThreshold (img : Image) : Nat := img.nat 0x5B 0

/-! ### Tariff windows (R134) -/

/-- Minute `m` lies in the window of a band. -/
def bandContains (b : Band) (m : Nat) : Bool :=
  if b.start < b.stop then decide (b.start ≤ m ∧ m < b.stop)
  else if b.stop < b.start then decide (b.start ≤ m ∨ m < b.stop)
  else true

/-- The first minute of the day that no band contains; `none` when the tariff covers the day. -/
def firstUncovered (bands : List Band) : Option Nat :=
  (List.range 1440).find? fun m => !(bands.any fun b => bandContains b m)

/-! ### The consistency conditions (R14)

Each condition is given as the list of items, code and index, that a failing clause of it relates: all of them are offered
as the item at which the check found the break (assumption 22). Where a clause says "present stream" the kind 01h is not
offered for the presence alone; conditions 3 and 4 count absent entries where R14 does not say "present" (assumption 46). -/

/-- Streams present in the image. -/
def Image.presentStreams (img : Image) : List (Fin 8) := (List.finRange 8).filter img.present

/-- Entries present in the image. -/
def Image.presentEntries (img : Image) : List (Fin 12) := (List.finRange 12).filter fun e => (img.operator e).isSome

/-- The items that a clause relates, when it does not hold. -/
def related (holds : Bool) (items : List (Nat × Nat)) : List (Nat × Nat) := if holds then [] else items

/-- Condition 1: inputs are not shared, and a POWER stream has no check input. -/
def Image.breaks1 (img : Image) : List (Nat × Nat) :=
  img.presentStreams.flatMap fun i =>
    (img.presentStreams.flatMap fun j =>
      related (i == j || img.mainInput i != img.mainInput j) [(0x02, i.val), (0x02, j.val)] ++
      related (i == j || img.checkInput j != some (img.mainInput i)) [(0x02, i.val), (0x04, j.val)]) ++
    related (img.checkInput i != some (img.mainInput i)) [(0x02, i.val), (0x04, i.val)] ++
    related (img.streamKind i != .power || (img.checkInput i).isNone) [(0x01, i.val), (0x04, i.val)]

/-- Condition 2: pulse weights and slot kinds. -/
def Image.breaks2 (img : Image) : List (Nat × Nat) :=
  img.presentStreams.flatMap fun i =>
    let reference (code : Nat) (slot : Fin 24) (k : SlotKind) : List (Nat × Nat) :=
      related (img.slotKind slot == k) [(0x01, i.val), (code, i.val), (0x10, slot.val)]
    let weight (top : Nat) : List (Nat × Nat) :=
      related (decide (1 ≤ img.pulseWeight i ∧ img.pulseWeight i ≤ top)) [(0x01, i.val), (0x03, i.val)]
    match img.streamKind i with
    | .gas => weight 100000 ++ reference 0x06 (img.slotA i) .press ++ reference 0x07 (img.slotB i) .temp
        ++ reference 0x08 (img.slotC i) .cv
    | .heat => weight 1000 ++ reference 0x06 (img.slotA i) .temp ++ reference 0x07 (img.slotB i) .temp
    | .power => weight 10000
    | .absent => []

/-- Condition 3: the supply mark is set on GAS streams only. -/
def Image.breaks3 (img : Image) : List (Nat × Nat) :=
  (List.finRange 8).flatMap fun i =>
    related (!img.supplyMark i || img.streamKind i == .gas) [(0x01, i.val), (0x0A, i.val)]

/-- The stream names the RECORD contract. -/
def Image.namesRecord (img : Image) (i : Fin 8) : Bool :=
  match img.streamContract i with
  | some c => img.isRecord c
  | none => false

/-- The kind of the contract that a stream names, as an item; nothing where it names none. -/
def Image.namedKind (img : Image) (i : Fin 8) : List (Nat × Nat) :=
  (img.streamContract i).toList.map fun c => (0x30, c.val)

/-- Condition 4: one RECORD contract, at most one POWER stream, which names it, and no stream of another kind that names
it, absent entries included. -/
def Image.breaks4 (img : Image) : List (Nat × Nat) :=
  let power := (List.finRange 8).filter fun i => img.streamKind i == .power
  related (((List.finRange 4).filter fun c => img.isRecord c).length == 1)
    ((List.finRange 4).map fun c => (0x30, c.val)) ++
  related (decide (power.length ≤ 1)) (power.map fun i => (0x01, i.val)) ++
  (List.finRange 8).flatMap fun i =>
    related (img.namesRecord i == (img.streamKind i == .power)) ([(0x01, i.val), (0x0B, i.val)] ++ img.namedKind i)

/-- Condition 5: at most two streams to a contract, RECORD period length 1, seller differs from buyer. -/
def Image.breaks5 (img : Image) : List (Nat × Nat) :=
  (List.finRange 4).flatMap fun c =>
    let named := img.presentStreams.filter fun i => img.streamContract i == some c
    related (decide (named.length ≤ 2)) (named.map fun i => (0x0B, i.val)) ++
    related (!img.isRecord c || img.periodDays c == 1) [(0x30, c.val), (0x33, c.val)] ++
    related (img.seller c != img.buyer c) [(0x31, c.val), (0x32, c.val)]

/-- Condition 6: PRICED commissioning tariffs cover the day. -/
def Image.breaks6 (img : Image) : List (Nat × Nat) :=
  (List.finRange 4).flatMap fun c =>
    related (img.isRecord c || (firstUncovered (img.bands c)).isNone)
      ([(0x30, c.val), (0x36, c.val)] ++
        (List.range (img.nat 0x36 c.val)).flatMap fun b => [(0x37, c.val * 6 + b), (0x38, c.val * 6 + b)])

/-- Condition 7: fixed values lie in the good range. -/
def Image.breaks7 (img : Image) : List (Nat × Nat) :=
  (List.finRange 24).flatMap fun i =>
    related ((img.slotKind i).good (img.fixedValue i)) [(0x10, i.val), (0x13, i.val)]

/-- Condition 8: the recovered-heat stream is a present HEAT stream. -/
def Image.breaks8 (img : Image) : List (Nat × Nat) :=
  match img.recoveredHeat with
  | some i => related (img.streamKind i == .heat) [(0x01, i.val), (0x48, 0)]
  | none => []

/-- Condition 9: the holder slots are of their kinds. -/
def Image.breaks9 (img : Image) : List (Nat × Nat) :=
  related (img.slotKind img.levelSlot == .level) [(0x10, img.levelSlot.val), (0x50, 0)] ++
  related (img.slotKind img.cvSlot == .cv) [(0x10, img.cvSlot.val), (0x51, 0)]

/-- Condition 10: the holder thresholds, hysteresis and target. -/
def Image.breaks10 (img : Image) : List (Nat × Nat) :=
  related (decide (img.holderLL < img.holderLo)) [(0x52, 0), (0x53, 0)] ++
  related (decide (img.holderLo < img.holderHi)) [(0x53, 0), (0x54, 0)] ++
  related (decide (img.holderHi < img.holderHH)) [(0x54, 0), (0x55, 0)] ++
  related (decide (img.hysteresis < img.holderLo - img.holderLL)) [(0x52, 0), (0x53, 0), (0x56, 0)] ++
  related (decide (img.hysteresis < img.holderHi - img.holderLo)) [(0x53, 0), (0x54, 0), (0x56, 0)] ++
  related (decide (img.hysteresis < img.holderHH - img.holderHi)) [(0x54, 0), (0x55, 0), (0x56, 0)] ++
  related (decide (img.holderLL ≤ img.holderTarget)) [(0x52, 0), (0x57, 0)] ++
  related (decide (img.holderTarget ≤ img.holderHH)) [(0x55, 0), (0x57, 0)]

/-- Condition 11: consumer limits within the hard bounds. -/
def Image.breaks11 (img : Image) : List (Nat × Nat) :=
  img.presentEntries.flatMap fun e =>
    let l := img.limits e
    related (decide (img.hardMin e ≤ l.minimum)) [(0x23, e.val), (0x27, e.val)] ++
    related (decide (l.minimum ≤ l.maximum)) [(0x23, e.val), (0x24, e.val)] ++
    related (decide (l.maximum ≤ img.hardMax e)) [(0x24, e.val), (0x28, e.val)] ++
    related (decide (l.ramp ≤ img.hardMax e)) [(0x25, e.val), (0x28, e.val)] ++
    related (decide (l.threshold ≤ img.hardMax e)) [(0x26, e.val), (0x28, e.val)] ++
    related (decide (img.nat 0x2B e.val ≤ l.maximum)) [(0x24, e.val), (0x2B, e.val)]

/-- Condition 12: an alternate is another present entry. -/
def Image.breaks12 (img : Image) : List (Nat × Nat) :=
  img.presentEntries.flatMap fun e =>
    match img.alternate e with
    | some a => related (a != e && (img.operator a).isSome) [(0x29, e.val), (0x20, a.val)]
    | none => []

/-- The twelve conditions in the order R14 checks them. -/
def Image.conditions (img : Image) : List (List (Nat × Nat)) :=
  [img.breaks1, img.breaks2, img.breaks3, img.breaks4, img.breaks5, img.breaks6, img.breaks7, img.breaks8,
   img.breaks9, img.breaks10, img.breaks11, img.breaks12]

/-- The first condition that fails, numbered from `n`, with the items it relates. -/
def firstBroken : Nat → List (List (Nat × Nat)) → Option (Nat × List (Nat × Nat))
  | _, [] => none
  | n, [] :: rest => firstBroken (n + 1) rest
  | n, (b :: bs) :: _ => some (n, b :: bs)

/-- The consistency check of R14: the number of the first failed condition and the items it relates. -/
def Image.inconsistency (img : Image) : Option (Nat × List (Nat × Nat)) := firstBroken 1 img.conditions

/-- The item code and index that a failed check reports: one of the related items, which one is left open
(assumption 22). -/
def Image.reportedItem (img : Image) (broken : List (Nat × Nat)) : Nat × Nat :=
  broken.getD (Config.conditionPick img.values % broken.length) (0, 0)

end Sys2Proof.Machine
end

