-- ==== Sys2Proof/Machine/Ops.lean ====
section
/-! DEFINITION. The operations every block uses: the image in force, which blocks run, the posting of notices
(R194 to R196), and the taking and answering of requests (R190, R191). -/

namespace Sys2Proof.Machine

/-- What every meaning answers. -/
abbrev Out := Host.Outcome State Fault Refusal

/-- The image the running blocks use (R10); the factory image where there is none. -/
def State.img (s : State) : Image := match s.station.inForce with | some p => p.image | none => Image.factory

/-- The station is OPERATING or RECONFIGURING. -/
def State.settled (s : State) : Bool := s.station.state == .operating || s.station.state == .reconfiguring

/-- The blocks that run in OPERATING and RECONFIGURING do run: the main supply is there (R7 to R9). -/
def State.blocksRun (s : State) : Bool := s.board.mainOn && s.settled

/-- Pulses are counted and characters taken: blocks run and nRESET is not held low (R200). -/
def State.inputsRun (s : State) : Bool := s.blocksRun && !s.board.resetLow

/-- The ports respond (R200). -/
def State.portsRespond (s : State) : Bool := s.board.mainOn && !s.board.resetLow

/-- The port of a party. -/
def State.port (s : State) (p : Party) : Port := s.ports.get (partyIndex p)

/-- The state with one port changed. -/
def State.mapPort (s : State) (p : Party) (f : Port → Port) : State :=
  { s with ports := s.ports.modify (partyIndex p) f }

/-! ### Notices -/

/-- The code of a notice kind (section 11.3). -/
def NoticeKind.code : NoticeKind → Nat
  | .grant => 1 | .unresponsive => 2 | .flare => 3 | .holderBand => 4 | .declarationStale => 5
  | .declarationFallback => 6 | .slotSubstituted => 7 | .slotRestored => 8 | .pulseMismatch => 9 | .linkBreak => 10
  | .linkRestored => 11 | .linkOverrun => 12 | .flagChanged => 13 | .exportDeviation => 14 | .periodClosed => 15
  | .periodExtended => 16 | .recordWritten => 17 | .tariffStaged => 18 | .tariffApplied => 19 | .tariffLapsed => 20
  | .storeDefect => 21 | .totalRollover => 22 | .timeAdjusted => 23 | .restarted => 24 | .queueHalf => 25
  | .queueFull => 26

/-- Kinds 1 to 23 are filterable (section 11.3). -/
def NoticeKind.filterable (k : NoticeKind) : Bool := decide (k.code ≤ 23)

/-- The 12 bytes of a notice record (section 11.3). -/
def Notice.bytes (n : Notice) : List Byte :=
  be 1 n.kind.code ++ be 1 n.subject ++ be 4 n.time ++ be 4 n.value.toNat ++
  be 1 ((if n.suspect then 128 else 0) + n.marks) ++ be 1 n.kindByte

/-- A count in a notice's value field raised by 1, stopping at its last value (R196). -/
def bumpValue (n : Notice) : Notice :=
  if n.value = 0xFFFFFFFF#32 then n else { n with value := n.value + 1 }

/-- The last notice of a queue with its value raised (R196). -/
def bumpTail : List Notice → List Notice
  | [] => []
  | [n] => [bumpValue n]
  | n :: m :: rest => n :: bumpTail (m :: rest)

/-- QUEUE HALF, as it follows a notice (R196). -/
def Notice.half (n : Notice) : Notice := ⟨.queueHalf, 0, n.time, 16#32, n.suspect, 0, 0⟩

/-- QUEUE FULL, as it replaces a notice (R196). -/
def Notice.full (n : Notice) : Notice := ⟨.queueFull, 0, n.time, 1#32, n.suspect, 0, 0⟩

/-- A notice offered to a port's queue (R196). -/
def Port.offer (pt : Port) (n : Notice) : Port :=
  if pt.dropping then { pt with queue := bumpTail pt.queue }
  else if pt.queue.length ≤ 30 then
    if pt.queue.length = 15 ∧ pt.halfArmed then { pt with queue := pt.queue ++ [n, n.half], halfArmed := false }
    else { pt with queue := pt.queue ++ [n] }
  else { pt with queue := pt.queue ++ [n.full], dropping := true }

/-- The port's filter admits a kind (R194, R195). -/
def Port.admits (pt : Port) (k : NoticeKind) : Bool := !k.filterable || pt.filter.getLsbD k.code

/-- A notice that reaches a port (R194). -/
def Port.arrive (pt : Port) (n : Notice) : Port := if pt.admits n.kind then pt.offer n else pt

/-- ATTN is asserted while a notice waits or a response is READY (R193). -/
def Port.attn (pt : Port) : Bool :=
  !pt.queue.isEmpty || (match pt.slot with | .ready _ => true | _ => false)

/-- All three parties. -/
def allParties : List Party := [.works, .plant, .town]

/-- A notice delivered to each recipient's port. -/
def State.deliver (s : State) (recipients : List Party) (n : Notice) : State :=
  { s with ports := recipients.foldl (fun t p => t.modify (partyIndex p) fun pt => pt.arrive n) s.ports }

/-- A block posts a notice (R194). In STARTING and BLANK no block posts (R7, R186). -/
def State.post (s : State) (recipients : List Party) (kind : NoticeKind) (subject : Nat) (value : BitVec 32)
    (marks : Nat := 0) (kindByte : Nat := 0) : State :=
  if s.settled then
    s.deliver recipients ⟨kind, subject, s.clock.time, value, s.clock.suspect, marks, kindByte⟩
  else s

/-- The seller and the buyer of a contract, the recipients of its notices (section 11.3). -/
def State.contractParties (s : State) (c : Fin 4) : List Party := [s.img.seller c, s.img.buyer c]

/-! ### Requests -/

/-- How a rule ends a request: with a result and data, or waiting for the store (R191). -/
inductive Reply where
  | done (r : Result) (data : List Byte)
  | waiting
  deriving DecidableEq, Repr

/-- A refusal: the result, no data, and none of the effects of the rule. -/
def refuse (s : State) (r : Result) : State × Reply := (s, .done r [])

/-- A completion with OK that changes nothing. -/
def answer (s : State) (data : List Byte) : State × Reply := (s, .done .ok data)

/-- A response placed in a slot, with its DROPPED bit (R191). -/
def Port.respond (pt : Port) (r : Result) (data : List Byte) : Port :=
  { pt with slot := .ready ⟨pt.dropped, r, data⟩, dropped := false }

/-- The response to the party's request is placed (R191). -/
def State.respond (s : State) (p : Party) (r : Result) (data : List Byte) : State :=
  s.mapPort p fun pt => pt.respond r data

/-- A frame is taken: any response held is discarded and the slot becomes WORKING (R191). -/
def Port.take (pt : Port) : Port := { pt with slot := .working, dataOut := [] }

/-- A frame that finds the slot WORKING is dropped unjudged (R191). -/
def Port.drop (pt : Port) : Port := { pt with dropped := true, dataOut := [] }

/-- The reply of a judged frame reaches the slot. -/
def State.finish (p : Party) : State × Reply → State
  | (s, .done r data) => s.respond p r data
  | (s, .waiting) => s

/-- A complete request frame at a port (R191): dropped when the slot is WORKING, otherwise taken and judged. -/
def State.takeFrame (s : State) (p : Party) (judge : State → State × Reply) : State :=
  if s.portsRespond then
    match (s.port p).slot with
    | .working => s.mapPort p Port.drop
    | _ => State.finish p (judge (s.mapPort p Port.take))
  else s

/-- The requests R7 names as taken in BLANK. -/
def requestInBlank : Request → Bool
  | .writeConfig | .readConfig | .readStation | .approve => true
  | _ => false

/-- R190, step 3: a request is refused STATE in STARTING, and in BLANK unless R7 names it. -/
def State.stateRefuses (s : State) (r : Request) : Bool :=
  s.station.state == .starting || (s.station.state == .blank && !requestInBlank r)

/-- A request with the parameter length its code takes (R190, steps 3 and 5). -/
def State.request (s : State) (p : Party) (r : Request) (rule : State → State × Reply) : State :=
  s.takeFrame p fun s => if s.stateRefuses r then refuse s .state else rule s

/-! ### Real time -/

/-- Where the count of milliseconds since a stamp stops: from there on an instantaneous flow is 0 (R37). -/
def sinceLimit : Nat := 60000

/-- A count of milliseconds since a stamp, raised. -/
def raiseSince (since ms : Nat) : Nat := min sinceLimit (since + ms)

/-- An input as milliseconds pass: its pending edge and its latest stamp grow older (R36, R37). -/
def PulseInput.pass (ms : Nat) (x : PulseInput) : PulseInput :=
  { x with
    edge := x.edge.map fun (e : Edge) => { e with since := raiseSince e.since ms }
    since := raiseSince x.since ms }

/-- Milliseconds pass: on the millisecond counter, on the tick timer's phase, at the pulse inputs, and on an erase in
progress. While the main supply is absent, the backup domain alone counts on, and keeps the phase (R177). -/
def State.passMs (s : State) (ms : Nat) : State :=
  if s.board.mainOn then
    { s with
      clock := { s.clock with millis := (s.clock.millis + ms) % 4294967296, phase := s.clock.phase + ms }
      pulses := { s.pulses with inputs := s.pulses.inputs.map (PulseInput.pass ms) }
      store := match s.store.current with
        | some (.erase _) => { s.store with eraseMs := min 400 (s.store.eraseMs + ms) }
        | _ => s.store }
  else if s.clock.valid then { s with clock := { s.clock with phase := s.clock.phase + ms } }
  else s

/-- The step of an empty queue: one millisecond passes (assumption 3). -/
def State.idle (s : State) : State := s.passMs 1

end Sys2Proof.Machine
end

