-- ==== Sys2Proof/Machine/Operands.lean ====
section
/-! DEFINITION. The operand forms of requests: a parameter as an index into a table, a figure brought into range,
and the first checks that every request for a consumer entry shares (R103). -/

namespace Sys2Proof.Machine

/-- A parameter that names one of `k` things; `none` is out of range. -/
def finOf (k n : Nat) : Option (Fin k) := if h : n < k then some ⟨n, h⟩ else none

/-- A figure brought into range from above, and whether it was moved. -/
def clampTop (top v : Nat) : Nat × Bool := if top < v then (top, true) else (v, false)

/-- A lifetime brought into 30 to 900 (R62), and whether it was moved. -/
def clampLifetime (v : Nat) : Nat × Bool :=
  if v < 30 then (30, true) else if 900 < v then (900, true) else (v, false)

/-- OK, or CLAMPED when a figure was moved. -/
def okOrClamped (moved : Bool) : Result := if moved then .clamped else .ok

/-- R103: an entry above 11 is refused RANGE, an absent entry STATE, a party other than the operating party
DENIED; otherwise the request's own rule judges. -/
def judgeEntry (s : State) (p : Party) (entry : Nat) (rule : Fin 12 → State × Reply) : State × Reply :=
  match finOf 12 entry with
  | none => refuse s .range
  | some e =>
    match s.img.operator e with
    | none => refuse s .state
    | some owner => if p = owner then rule e else refuse s .denied


/-- Consumer state codes (R189). -/
def ConsumerState.code : ConsumerState → Nat
  | .out => 0 | .ready => 1 | .running => 2 | .changing => 3 | .unresponsive => 4 | .tripped => 5

/-- The data of every accepted request of section 6.3: state, confirmed grant, current id, refusal cap (R103). -/
def consumerData (c : Consumer) : List Byte :=
  be 1 c.state.code ++ be 4 c.confirmed ++ be 1 c.id ++ optField 4 c.cap

end Sys2Proof.Machine
end

