-- ==== Sys2Proof/Machine/Ports.lean ====
section
/-! DEFINITION. The party ports (chapter 11): FETCH, TAKE NOTICE, SET FILTER, READ PORT, and frames that no request
rule judges. -/

namespace Sys2Proof.Machine

/-- Status codes 00h to 09h (R189). -/
def Result.code : Result → Nat
  | .ok => 0 | .clamped => 1 | .denied => 2 | .range => 3 | .state => 4 | .tooLate => 5 | .mismatch => 6 | .gone => 7
  | .unknown => 8 | .frame => 9

/-- A response frame: status, data length, data, check (R189). -/
def responseFrame (status : Nat) (data : List Byte) : List Byte :=
  let body := be 1 status ++ be 1 data.length ++ data
  body ++ [crc8 body]

/-- The response frame that a FETCH clocks out (R192); a FETCH frame whose length byte is not 0 or whose check is
bad is answered FRAME (R190). -/
def fetchFrame (pt : Port) (len chk : Byte) : List Byte :=
  if len ≠ 0 ∨ chk ≠ crc8 [0, len] then responseFrame 9 []
  else match pt.slot with
    | .idle => responseFrame 10 []
    | .working => responseFrame 11 []
    | .ready r => responseFrame ((if r.dropped then 128 else 0) + r.result.code) r.data

/-- FETCH (R192): it changes nothing but what the data out line shows. Bytes clocked beyond the response read FFh;
a select released early ends it (R189). -/
def execFetch (p : Party) (len chk : Byte) (clocked : Nat) (s : State) : Out :=
  .next (if s.portsRespond then
    s.mapPort p fun pt =>
      { pt with dataOut := (fetchFrame pt len chk ++ List.replicate clocked 0xFF#8).take clocked }
  else s)

/-- The port after the oldest notice is taken (R197). -/
def Port.afterTake (pt : Port) : Port :=
  match pt.queue with
  | [] => pt
  | _ :: rest =>
    { pt with queue := rest, dropping := false, halfArmed := pt.halfArmed || decide (rest.length < 8) }

/-- The data of TAKE NOTICE: the count after the take, then the record taken (R197). -/
def Port.takeData (pt : Port) : List Byte :=
  match pt.queue with
  | [] => be 1 0
  | n :: rest => be 1 rest.length ++ n.bytes

/-- TAKE NOTICE past the state check (R197). -/
def takeNoticeRule (p : Party) (s : State) : State × Reply :=
  (s.mapPort p Port.afterTake, .done .ok (s.port p).takeData)

/-- TAKE NOTICE (R197). -/
def execTakeNotice (p : Party) (s : State) : Out := .next (s.request p .takeNotice (takeNoticeRule p))

/-- SET FILTER past the state check (R195). -/
def setFilterRule (p : Party) (filter : Nat) (s : State) : State × Reply :=
  if ValueSet.filterSet.allows filter then
    (s.mapPort p fun pt => { pt with filter := BitVec.ofNat 32 filter }, .done .ok (be 4 filter))
  else refuse s .range

/-- SET FILTER (R195). -/
def execSetFilter (p : Party) (filter : Nat) (s : State) : Out :=
  .next (s.request p .setFilter (setFilterRule p filter))

/-- The value of the tail QUEUE FULL while the dropping mark is set (R198). -/
def Port.lost (pt : Port) : Option Nat := if pt.dropping then pt.queue.getLast?.map fun n => n.value.toNat else none

/-- The data of READ PORT (R198). -/
def portData (p : Party) (s : State) : List Byte :=
  let pt := s.port p
  be 1 (partyCode p) ++ be 1 (partyCode p) ++ be 4 pt.queue.length ++ markByte pt.halfArmed ++ markByte pt.dropping ++
  be 4 (pt.lost.getD 0) ++ be 4 pt.filter.toNat ++ be 4 (s.img.defaultFilter p).toNat

/-- READ PORT (R198). -/
def execReadPort (p : Party) (s : State) : Out := .next (s.request p .readPort fun s => answer s (portData p s))

/-- How R190 judges a frame that is no well-formed request. -/
def badFrameJudge (fault : FrameFault) (s : State) : State × Reply :=
  match fault with
  | .badCheck => refuse s .frame
  | .overlong => refuse s .frame
  | .unknownCode => refuse s .unknown
  | .wrongLength r => if s.stateRefuses r then refuse s .state else refuse s .range

/-- BAD_FRAME (R190). -/
def execBadFrame (p : Party) (fault : FrameFault) (s : State) : Out := .next (s.takeFrame p (badFrameJudge fault))

/-- INCOMPLETE_FRAME (R189): discarded without trace; the data out line carried FFh. -/
def execIncompleteFrame (p : Party) (s : State) : Out :=
  .next (if s.portsRespond then s.mapPort p fun pt => { pt with dataOut := [] } else s)

end Sys2Proof.Machine
end

