-- ==== Sys2Proof/Machine/Flags.lean ====
section
/-! DEFINITION. The station flags F0 to F7 (section 4.3): the one operation that changes a flag, and the requests
SET FLAG, CLEAR FLAG and READ FLAGS. -/

namespace Sys2Proof.Machine

/-- The state with the allocator changed. -/
def State.mapAlloc (s : State) (f : Allocator → Allocator) : State := { s with alloc := f s.alloc }

/-- A request or a driving block asks for a flag to take a value: it changes, with FLAG CHANGED to all, only when it
has the other value (R67). -/
def State.askFlag (s : State) (f : Fin 8) (v : Bool) : State :=
  if (s.alloc.flags.get f).set = v then s
  else
    (s.mapAlloc fun a => { a with flags := a.flags.set f ⟨v, some s.clock.time⟩ }).post
      allParties .flagChanged f.val (if v then 1#32 else 0#32)

/-- F6 LINK DOWN. -/
def flagLinkDown : Fin 8 := 6

/-- F7 EXPORT BEHIND. -/
def flagBehind : Fin 8 := 7

/-- F4 HOLDER HIGH. -/
def flagHigh : Fin 8 := 4

/-- F5 HOLDER LOW. -/
def flagLow : Fin 8 := 5

/-- SET FLAG and CLEAR FLAG past the state check (R68). -/
def flagRule (p : Party) (flag : Nat) (v : Bool) (s : State) : State × Reply :=
  match finOf 8 flag with
  | none => refuse s .range
  | some f =>
    if 4 ≤ flag then refuse s .denied
    else if p ≠ s.img.flagOwner flag then refuse s .denied
    else (s.askFlag f v, .done .ok (markByte v))

/-- SET FLAG (R68). -/
def execSetFlag (p : Party) (flag : Nat) (s : State) : Out := .next (s.request p .setFlag (flagRule p flag true))

/-- CLEAR FLAG (R68). -/
def execClearFlag (p : Party) (flag : Nat) (s : State) : Out := .next (s.request p .clearFlag (flagRule p flag false))

/-- The data of READ FLAGS (R70). -/
def flagsData (s : State) : List Byte :=
  (List.finRange 8).flatMap fun f =>
    markByte (s.alloc.flags.get f).set ++ optField 4 (s.alloc.flags.get f).changedAt ++
    (if f.val < 4 then be 1 (partyCode (s.img.flagOwner f.val)) else [])

/-- READ FLAGS (R70). -/
def execReadFlags (p : Party) (s : State) : Out := .next (s.request p .readFlags fun s => answer s (flagsData s))

end Sys2Proof.Machine
end

