-- ==== Sys2Proof/Machine/SensorLink.lean ====
section
/-! DEFINITION. The sensor link and its slots (sections 2.1 and 2.2): characters, breaks, the reading queue, the
application of readings, ageing and substitution. -/

namespace Sys2Proof.Machine

/-- The state with the receiver changed. -/
def State.mapSensor (s : State) (f : Sensor → Sensor) : State := { s with sensor := f s.sensor }

/-- The number of set bits among the lowest `k`. -/
def popCount (b : Byte) : Nat → Nat
  | 0 => 0
  | k + 1 => (if b.getLsbD k then 1 else 0) + popCount b k

/-- A character is valid when its parity bit gives even parity and its stop bit is at mark (R21). -/
def charValid (data : Byte) (parity stopAtMark : Bool) : Bool :=
  ((popCount data 8 + (if parity then 1 else 0)) % 2 == 0) && stopAtMark

/-- The start character 7Eh. -/
def startChar : Byte := 0x7E#8

/-- The assembler's step (R22): the new state, and at completion the characters 2 to 7 with the spoiled mark. -/
def assemble (a : Assembler) (c : Byte) (valid : Bool) : Assembler × Option (List Byte × Bool) :=
  match a with
  | .hunting => if valid && c == startChar then (.assembling 2 [] false, none) else (.hunting, none)
  | .assembling pos held spoiled =>
    if !valid then
      if pos = 7 then (.hunting, some (held ++ [c], true)) else (.assembling (pos + 1) (held ++ [c]) true, none)
    else if pos = 2 then
      if c = startChar then (.assembling 2 [] false, none)
      else if c.toNat ≤ 0x17 then (.assembling 3 [c] false, none)
      else (.hunting, none)
    else if spoiled && c == startChar then (.assembling 2 [] false, none)
    else if pos = 7 then (.hunting, some (held ++ [c], spoiled))
    else (.assembling (pos + 1) (held ++ [c]) spoiled, none)

/-- The record that six characters make, when it is good (R23). -/
def judgeRecord (chars : List Byte) (spoiled : Bool) : Option Reading :=
  if spoiled then none
  else match chars with
    | [slot, v2, v1, v0, status, check] =>
      if check = slot ^^^ v2 ^^^ v1 ^^^ v0 ^^^ status then
        some ⟨Fin.ofNat 24 slot.toNat, ofBeInt 3 [v2, v1, v0], status.getLsbD 0, status.getLsbD 1⟩
      else none
    | _ => none

/-- A good record offered to the reading queue (R26). -/
def State.offerReading (s : State) (r : Reading) : State :=
  if s.sensor.queue.length < 16 then s.mapSensor fun x => { x with queue := x.queue ++ [r] }
  else if s.sensor.overrunArmed then
    (s.mapSensor fun x => { x with overrunArmed := false }).post allParties .linkOverrun r.slot.val 0
  else s

/-- A character reaches the link state: the first valid one with the link DOWN restores it (R25). The seconds since the
break are a free value where a backward adjustment has made them negative (assumption 48). -/
def State.linkCharacter (s : State) (valid : Bool) : State :=
  if valid && !s.sensor.linkUp then
    let s1 := (s.mapSensor fun x => { x with linkUp := true }).askFlag flagLinkDown false
    s1.post allParties .linkRestored 0 (fit32 0 4294967295 Config.wideWord ((s.clock.time : Int) - s.sensor.breakAt))
  else s

/-- A character reaches the assembler, and a record it completes is judged (R22, R23). -/
def State.assembleCharacter (s : State) (c : Byte) (valid : Bool) : State :=
  let step := assemble s.sensor.assembler c valid
  let s1 := s.mapSensor fun x => { x with assembler := step.1 }
  match step.2 with
  | none => s1
  | some (chars, spoiled) =>
    match judgeRecord chars spoiled with
    | none => s1
    | some r => s1.offerReading r

/-- CHARACTER_RECEIVED (R21): to the link state, then to the assembler. -/
def execCharacterReceived (data : Byte) (parity stopAtMark : Bool) (s : State) : Out :=
  let valid := charValid data parity stopAtMark
  .next (if s.inputsRun then (s.linkCharacter valid).assembleCharacter data valid else s)

/-- A break is detected (R24). -/
def State.breakDetected (s : State) : State :=
  let s1 := s.mapSensor fun x => { x with assembler := .hunting, breakStanding := true }
  if s.sensor.linkUp then
    ((s1.mapSensor fun x => { x with linkUp := false, breakAt := s.clock.time }).askFlag flagLinkDown true).post
      allParties .linkBreak 0 0
  else s1

/-- LINK_BREAK (R24): the 22nd bit time at space ends. A line that stays at space is one break. -/
def execLinkBreak (s : State) : Out :=
  .next (if s.inputsRun && !s.sensor.breakStanding then s.breakDetected else s)

/-- LINE_RETURNS_TO_MARK (R24): the break ends. -/
def execLineReturnsToMark (s : State) : Out := .next (s.mapSensor fun x => { x with breakStanding := false })

/-! ### Slots -/

/-- The value in use of a slot: the last good value in FRESH, by the substitution rule outside it (R28). -/
def valueInUse (img : Image) (i : Fin 24) (sl : Slot) : Int :=
  match sl.state with
  | .fresh => sl.lastGood.getD (img.fixedValue i)
  | _ => if img.fixedRule i then img.fixedValue i else sl.lastGood.getD (img.fixedValue i)

/-- The value in use of slot `i`. -/
def State.slotValue (s : State) (i : Fin 24) : Int := valueInUse s.img i (s.sensor.slots.get i)

/-- The substituted indication (R33). -/
def slotIndication (sl : Slot) : Bool := decide (sl.state ≠ .fresh) || sl.uncalibrated

/-- The class of a record at its slot (R29): the cause of a fault record, or `none` for a good reading. -/
def faultCause (img : Image) (r : Reading) : Option Cause :=
  if r.fault then some .fault
  else if (img.slotKind r.slot).good r.value then none
  else some .range

/-- The slot after a good reading (R30). -/
def Slot.freshened (sl : Slot) (v : Int) (time : Nat) (uncalibrated : Bool) : Slot :=
  { sl with state := .fresh, lastGood := some v, goodAt := some time, age := 0, uncalibrated := uncalibrated, cause := none }

/-- The slot once substituted (R31, R32). -/
def Slot.substitute (sl : Slot) (cause : Cause) : Slot :=
  { sl with state := .substituted, age := 0, uncalibrated := false, cause := some cause }

/-- The state with one slot replaced. -/
def State.setSlot (s : State) (i : Fin 24) (sl : Slot) : State :=
  s.mapSensor fun x => { x with slots := x.slots.set i sl }

/-- A value as the 4-byte value field of a notice carries it. -/
def noticeInt (v : Int) : BitVec 32 := BitVec.ofInt 32 v

/-- A slot becomes SUBSTITUTED and SLOT SUBSTITUTED is posted with its new value in use (R31, R32). -/
def State.substituteSlot (s : State) (i : Fin 24) (cause : Cause) : State :=
  let sl := (s.sensor.slots.get i).substitute cause
  (s.setSlot i sl).post allParties .slotSubstituted i.val (noticeInt (valueInUse s.img i sl))

/-- A record is applied to its slot (R30, R31). -/
def State.applyReading (s : State) (r : Reading) : State :=
  let sl := s.sensor.slots.get r.slot
  match faultCause s.img r with
  | none =>
    let s1 := s.setSlot r.slot (sl.freshened r.value s.clock.time r.uncalibrated)
    if sl.state = .substituted then s1.post allParties .slotRestored r.slot.val (noticeInt r.value) else s1
  | some cause =>
    if sl.state = .substituted then s.setSlot r.slot { sl with cause := some cause }
    else s.substituteSlot r.slot cause

/-- The reading queue after its head has left: an empty queue arms the overrun report mark (R26). -/
def Sensor.afterApply (x : Sensor) (rest : List Reading) : Sensor :=
  { x with queue := rest, overrunArmed := x.overrunArmed || rest.isEmpty }

/-- READING_APPLIED (R27): the head record is applied to its slot, unless a tick snapshot is in progress. -/
def execReadingApplied (s : State) : Out :=
  .next (if s.blocksRun && s.fiscal.tick.isNone then
    match s.sensor.queue with
    | [] => s
    | r :: rest => (s.mapSensor fun x => x.afterApply rest).applyReading r
  else s)

/-- A slot at a second boundary (R32): below its maximum age its age rises; at its maximum age the expiry is due. -/
def Slot.atBoundary (maxAge : Nat) (sl : Slot) : Slot :=
  if sl.state = .fresh then
    if sl.age < maxAge then { sl with age := sl.age + 1 } else { sl with ageDue := true }
  else sl

/-- The ageing step that a boundary left due at a slot (R32): an expiry, or a raised age when a good reading has
come first. -/
def State.slotAgeStep (s : State) (i : Fin 24) : State :=
  let sl := s.sensor.slots.get i
  if sl.ageDue then
    let s1 := s.setSlot i { sl with ageDue := false }
    if sl.state = .fresh then
      if sl.age < s.img.maxAge i then s1.setSlot i { sl with ageDue := false, age := sl.age + 1 }
      else s1.substituteSlot i .age
    else s1
  else s

/-- SLOT_AGE_EXPIRY (R32). -/
def execSlotAgeExpiry (slot : Fin 24) (s : State) : Out := .next (if s.blocksRun then s.slotAgeStep slot else s)

/-- Slot state codes (R189). -/
def SlotState.code : SlotState → Nat
  | .never => 0 | .fresh => 1 | .substituted => 2

/-- Substitution cause codes (R189). -/
def Cause.code : Cause → Nat
  | .age => 0 | .fault => 1 | .range => 2 | .restart => 3

/-- The data of READ SLOT (R34). -/
def slotData (s : State) (i : Fin 24) : List Byte :=
  let sl := s.sensor.slots.get i
  beInt 1 (s.img.get 0x10 i.val) ++ be 4 (s.img.maxAge i) ++ beInt 1 (s.img.get 0x12 i.val) ++ beInt 4 (s.img.fixedValue i) ++
  be 1 sl.state.code ++ beInt 4 (s.slotValue i) ++ optFieldInt 4 sl.lastGood ++ optField 4 sl.goodAt ++ be 4 sl.age ++
  markByte sl.uncalibrated ++ optField 1 (sl.cause.map Cause.code) ++ markByte (slotIndication sl)

/-- READ SLOT past the state check (R34). -/
def readSlotRule (slot : Nat) (s : State) : State × Reply :=
  match finOf 24 slot with
  | none => refuse s .range
  | some i => answer s (slotData s i)

/-- READ SLOT (R34). -/
def execReadSlot (p : Party) (slot : Nat) (s : State) : Out := .next (s.request p .readSlot (readSlotRule slot))

end Sys2Proof.Machine
end

