-- ==== Sys2Proof/Machine/Declarations.lean ====
section
/-! DEFINITION. The Declaration Table (section 4.1): DECLARE, ageing, READ DECLARATION. -/

namespace Sys2Proof.Machine

/-- The state with one declaration replaced. -/
def State.setDecl (s : State) (d : Fin 13) (r : Declaration) : State := { s with decls := s.decls.set d r }

/-- The entry whose gas request a declaration is; `none` for HEAT DEMAND. -/
def declEntry (d : Fin 13) : Option (Fin 12) := finOf 12 d.val

/-- The owner of a declaration (section 4.1); `none` for an absent entry's. -/
def State.declOwner (s : State) (d : Fin 13) : Option Party :=
  match declEntry d with
  | some e => s.img.operator e
  | none => some .town

/-- The upper value of a declaration (R60): the consumer's maximum in force, or 2,000,000 kW. -/
def State.declUpper (s : State) (d : Fin 13) : Nat :=
  match declEntry d with
  | some e => (s.alloc.consumers.get e).limits.maximum
  | none => 2000000

/-- The value in use of a declaration (R60). -/
def declValue (img : Image) (d : Fin 13) (r : Declaration) : Nat :=
  match r.state, r.declared with
  | .fallback, _ => img.fallback d
  | _, some x => x.value
  | _, none => img.fallback d

/-- The declaration after a DECLARE that is taken (R62). -/
def declareRecord (r : Declaration) (value lifetime time : Nat) : Declaration :=
  { r with state := .fresh, declared := some ⟨value, lifetime, time⟩, age := 0 }

/-- DECLARE past the state check (R61, R62). -/
def declareRule (p : Party) (declaration value lifetime : Nat) (s : State) : State × Reply :=
  match finOf 13 declaration with
  | none => refuse s .range
  | some d =>
    match s.declOwner d with
    | none => refuse s .state
    | some owner =>
      if p ≠ owner then refuse s .denied
      else
        let v := clampTop (s.declUpper d) value
        let l := clampLifetime lifetime
        (s.setDecl d (declareRecord (s.decls.get d) v.1 l.1 s.clock.time),
          .done (okOrClamped (v.2 || l.2)) (be 4 v.1 ++ be 2 l.1))

/-- DECLARE (R61). -/
def execDeclare (p : Party) (declaration value lifetime : Nat) (s : State) : Out :=
  .next (s.request p .declare (declareRule p declaration value lifetime))

/-- The lifetime of a record, 0 when absent. -/
def Declaration.lifetime (r : Declaration) : Nat := match r.declared with | some x => x.lifetime | none => 0

/-- A declaration at a second boundary (R63): its age rises, unless the raised age would equal the lifetime; then the
step that moves it on is due. -/
def Declaration.atBoundary (r : Declaration) : Declaration :=
  if r.state = .fallback then r
  else if r.age + 1 < r.lifetime then { r with age := r.age + 1 }
  else { r with ageDue := true }

/-- The state a declaration moves on to (R63). -/
def DeclState.after : DeclState → DeclState
  | .fresh => .stale
  | _ => .fallback

/-- The ageing step that a boundary left due at a declaration (R63, R64): the move to STALE or FALLBACK with its
notice, or a raised age when a DECLARE has come first. -/
def State.declAgeStep (s : State) (d : Fin 13) : State :=
  let r := s.decls.get d
  if r.ageDue then
    if r.state = .fallback then s.setDecl d { r with ageDue := false }
    else if r.age + 1 < r.lifetime then s.setDecl d { r with ageDue := false, age := r.age + 1 }
    else
      let r' := { r with state := r.state.after, age := 0, ageDue := false }
      (s.setDecl d r').post allParties
        (if r.state = .fresh then .declarationStale else .declarationFallback) d.val
        (BitVec.ofNat 32 (declValue s.img d r'))
  else s

/-- DECLARATION_STALE (R63): the step of a FRESH declaration. -/
def execDeclarationStale (d : Fin 13) (s : State) : Out :=
  .next (if s.blocksRun && (s.decls.get d).state == .fresh then s.declAgeStep d else s)

/-- DECLARATION_FALLBACK (R63): the step of a STALE declaration. -/
def execDeclarationFallback (d : Fin 13) (s : State) : Out :=
  .next (if s.blocksRun && (s.decls.get d).state == .stale then s.declAgeStep d else s)

/-- Declaration state codes (R189). -/
def DeclState.code : DeclState → Nat
  | .fresh => 0 | .stale => 1 | .fallback => 2

/-- The three fields that are present or absent together (R65, item 3). -/
def declaredData : Option Declared → List Byte
  | some x => markByte true ++ be 4 x.value ++ be 2 x.lifetime ++ be 4 x.time
  | none => markByte false ++ be 4 0 ++ be 2 0 ++ be 4 0

/-- The data of READ DECLARATION (R65). -/
def declarationData (s : State) (d : Fin 13) : List Byte :=
  let r := s.decls.get d
  be 1 (match s.declOwner d with | some p => partyCode p | none => 255) ++ be 1 r.state.code ++
  be 4 (declValue s.img d r) ++ declaredData r.declared ++ be 4 r.age ++
  be 4 (if r.state = .fallback then 0 else r.lifetime - r.age) ++ be 4 (s.img.fallback d) ++ be 4 (s.declUpper d)

/-- READ DECLARATION past the state check (R65). -/
def readDeclarationRule (declaration : Nat) (s : State) : State × Reply :=
  match finOf 13 declaration with
  | none => refuse s .range
  | some d => answer s (declarationData s d)

/-- READ DECLARATION (R65). -/
def execReadDeclaration (p : Party) (declaration : Nat) (s : State) : Out :=
  .next (s.request p .readDeclaration (readDeclarationRule declaration))

end Sys2Proof.Machine
end

