-- ==== Sys2Proof/Machine/PulseInputs.lean ====
section
/-! DEFINITION. The pulse inputs (section 2.5): edges, qualification, capture stamps and instantaneous flow, and the
comparison of a main input with its check input. -/

namespace Sys2Proof.Machine

/-- The state with the Pulse Counter Array changed. -/
def State.mapPulses (s : State) (f : Pulses → Pulses) : State := { s with pulses := f s.pulses }

/-- The state with one pulse input changed. -/
def State.mapInput (s : State) (pin : Fin 8) (f : PulseInput → PulseInput) : State :=
  s.mapPulses fun x => { x with inputs := x.inputs.modify pin f }

/-- The interval between two stamps, the counter wrapping through 2³² (R37). -/
def msBetween (earlier later : Nat) : Nat := (later + 4294967296 - earlier) % 4294967296

/-- An input whose pending edge qualifies: counted once, its stamps moved on (R36, R37). -/
def PulseInput.qualify (x : PulseInput) : PulseInput :=
  match x.edge with
  | none => x
  | some e => { x with count := x.count + 1, edge := none, previous := x.latest, latest := some e.stamp, since := e.since }

/-- The pending edge of an input has been high for its minimum width. -/
def PulseInput.widthReached (x : PulseInput) : Bool :=
  match x.edge with
  | none => false
  | some e => decide (e.width ≤ e.since)

/-- PULSE_EDGE (R36): a rising edge becomes the pending edge, with its stamp and the width in force. -/
def execPulseEdge (pin : Fin 8) (ms : Nat) (s : State) : Out :=
  let s1 := s.passMs ms
  .next (if s1.inputsRun then
    s1.mapInput pin fun x => { x with edge := some ⟨s1.clock.millis, s1.img.minWidth pin, 0⟩ }
  else s1)

/-- PULSE_QUALIFIED (R36): the input has stayed high for the minimum width of its pending edge. -/
def execPulseQualified (pin : Fin 8) (ms : Nat) (s : State) : Out :=
  let s1 := s.passMs ms
  .next (if s1.inputsRun && (s1.pulses.inputs.get pin).widthReached then
    s1.mapInput pin PulseInput.qualify
  else s1)

/-- PULSE_FALL (R36): a pulse that falls before the width is reached is ignored; one that falls later has
qualified. -/
def execPulseFall (pin : Fin 8) (ms : Nat) (s : State) : Out :=
  let s1 := s.passMs ms
  .next (if s1.inputsRun then
    if (s1.pulses.inputs.get pin).widthReached then s1.mapInput pin PulseInput.qualify
    else s1.mapInput pin fun x => { x with edge := none }
  else s1)

/-- The instantaneous flow of an input (R37). -/
def instantaneousFlow (x : PulseInput) (weight : Nat) : Nat :=
  match x.previous, x.latest with
  | some a, some b => if sinceLimit ≤ x.since then 0 else weight * 3600000 / max 1 (msBetween a b)
  | _, _ => 0

/-- The check input of a stream that keeps a comparison window: present, GAS or HEAT, naming a check input (R38). -/
def Image.windowInput (img : Image) (i : Fin 8) : Option (Fin 8) :=
  match img.streamKind i with
  | .gas => img.checkInput i
  | .heat => img.checkInput i
  | _ => none

/-- A window that a tick adds to (R38). -/
def CheckWindow.add (w : CheckWindow) (main check : Nat) : CheckWindow :=
  { w with main := w.main + main, check := w.check + check, ticks := w.ticks + 1 }

/-- The main and check counts of a window differ by more than the limit (R38). -/
def CheckWindow.mismatch (w : CheckWindow) (limit : Nat) : Bool :=
  decide (limit < max w.main w.check - min w.main w.check)

/-- The end of a window at its 60th tick (R38). -/
def State.windowEnd (s : State) (i : Fin 8) : State :=
  let w := s.pulses.windows.get i
  if 60 ≤ w.ticks then
    let bad := w.mismatch (s.img.mismatchLimit i)
    let s1 := s.mapPulses fun x => { x with windows := x.windows.set i ⟨0, 0, 0, bad⟩ }
    if bad then s1.post allParties .pulseMismatch i.val (noticeInt ((w.main : Int) - w.check)) else s1
  else s

/-- The end of every window that has reached its 60th tick, in ascending stream index. -/
def State.endWindows (s : State) : State := (List.finRange 8).foldl State.windowEnd s

/-- CHECK_WINDOW_END (R38). -/
def execCheckWindowEnd (stream : Fin 8) (s : State) : Out := .next (if s.blocksRun then s.windowEnd stream else s)

end Sys2Proof.Machine
end

