-- ==== Sys2Proof/Machine/Fiscal.lean ====
section
/-! DEFINITION. The Fiscal Integrator's own work (chapter 3): increments, residual and carry, the conditions of a
tick, frame sums and averages, and READ STREAM. The hand-offs of a tick are in TickFlow.lean. -/

namespace Sys2Proof.Machine

/-- The state with the Fiscal Integrator changed. -/
def State.mapFiscal (s : State) (f : Fiscal → Fiscal) : State := { s with fiscal := f s.fiscal }

/-- The factory coefficient table: k_i at 10 × i °C (R44). -/
def coefficientTable : List Nat :=
  [11670, 11660, 11620, 11580, 11530, 11480, 11420, 11360, 11300, 11230, 11160, 11090, 11010, 10930, 10840, 10750,
   10660, 10560, 10460]

/-- The heat coefficient at a mean temperature (R44). -/
def heatCoefficient (tm : Int) : Nat :=
  if tm < 0 then 11670
  else if 18000 ≤ tm then 10460
  else
    let i := tm.toNat / 1000
    let f := tm.toNat % 1000
    let k := coefficientTable.getD i 0
    k - (k - coefficientTable.getD (i + 1) 0) * f / 1000

/-- The mean temperature, the floor of half the sum (R44). -/
def meanTemperature (ts tr : Int) : Int := (ts + tr) / 2

/-- The increment of a HEAT tick from `v` litres (R43). -/
def heatIncrement (v : Nat) (ts tr theta : Int) : Nat :=
  if ts - tr < theta then 0 else v * heatCoefficient (meanTemperature ts tr) * (ts - tr).toNat

/-- Absolute temperature in hundredths of a kelvin, at least 1000 (R45). -/
def absoluteTemperature (t : Int) : Nat := max 1000 (t + 27315).toNat

/-- The increment of a GAS tick from `v` litres (R45). -/
def gasIncrement (v : Nat) (p t cv : Int) : Nat :=
  v * 1000 * p.toNat * 27315 * cv.toNat / (101325 * absoluteTemperature t)

/-- The increment of a POWER tick from `v` Wh (R46). -/
def powerIncrement (v : Nat) : Nat := v * 1000000

/-- What a tick's snapshot gives for a stream, and the conditions judged from it (R49 to R51). -/
structure TickOutcome where
  increment : Nat
  substituted : Bool
  degraded : Bool
  reverse : Bool
  deriving DecidableEq, Repr

/-- A HEAT tick is degraded when the contract has a compliance temperature and the supply is below it (R51). -/
def State.degradedAt (s : State) (i : Fin 8) (ts : Int) : Bool :=
  match s.img.streamContract i with
  | none => false
  | some c => decide (s.img.tmin c ≠ 0 ∧ ts < s.img.tmin c)

/-- The tick of stream `i` as its snapshot shows it (R41, R43 to R46, R49 to R51). -/
def State.tickOutcome (s : State) (i : Fin 8) : TickOutcome :=
  let v := (s.pulses.inputs.get (s.img.mainInput i)).count * s.img.pulseWeight i
  let a := s.sensor.slots.get (s.img.slotA i)
  let b := s.sensor.slots.get (s.img.slotB i)
  let c := s.sensor.slots.get (s.img.slotC i)
  let va := s.slotValue (s.img.slotA i)
  let vb := s.slotValue (s.img.slotB i)
  let doubtful := (s.pulses.windows.get i).doubtful
  match s.img.streamKind i with
  | .heat => ⟨heatIncrement v va vb (s.img.theta i), slotIndication a || slotIndication b || doubtful,
      s.degradedAt i va, decide (va - vb < 0)⟩
  | .gas => ⟨gasIncrement v va vb (s.slotValue (s.img.slotC i)),
      slotIndication a || slotIndication b || slotIndication c || doubtful, false, false⟩
  | .power => ⟨powerIncrement v, false, false, false⟩
  | .absent => ⟨0, false, false, false⟩

/-- A count of seconds raised by 1, stopping at its last value (R49, R50). -/
def raiseSeconds (n : Nat) (raised : Bool) : Nat := if raised ∧ n < 4294967295 then n + 1 else n

/-- The carry that an increment makes (R47). -/
def Stream.carryOf (st : Stream) (increment : Nat) : Nat := (st.residual + increment) / 1000000000

/-- The total passes 999,999,999 (R48). -/
def Stream.rollsOver (st : Stream) (increment : Nat) : Bool := decide (999999999 < st.total + st.carryOf increment)

/-- A stream after a tick (R47, R49, R50, R55). -/
def Stream.integrate (st : Stream) (label : Nat) (o : TickOutcome) (summing : Bool) : Stream where
  total := (st.total + st.carryOf o.increment) % 1000000000
  residual := (st.residual + o.increment) % 1000000000
  frameSum := if summing then st.frameSum + o.increment else st.frameSum
  frameAverage := st.frameAverage
  errorSeconds := raiseSeconds st.errorSeconds o.substituted
  reverseSeconds := raiseSeconds st.reverseSeconds o.reverse
  last := some ⟨label, o.increment, st.carryOf o.increment, o.substituted, o.degraded, o.reverse⟩

/-- Every present stream's record after the tick (R42). -/
def State.integratedStreams (s : State) (label : Nat) : Table Stream 8 :=
  s.fiscal.streams.mapFin fun i st =>
    if s.img.present i then st.integrate label (s.tickOutcome i) (s.station.state == .operating) else st

/-- Every comparison window after the tick (R38). Two streams that name one check input each add its whole count
(assumption 49). -/
def State.addedWindows (s : State) : Table CheckWindow 8 :=
  s.pulses.windows.mapFin fun i w =>
    match s.img.windowInput i with
    | some pin => w.add (s.pulses.inputs.get (s.img.mainInput i)).count (s.pulses.inputs.get pin).count
    | none => w

/-- The streams whose totals wrap in the tick (R48). -/
def State.rollovers (s : State) : List (Fin 8) :=
  s.img.presentStreams.filter fun i => (s.fiscal.streams.get i).rollsOver (s.tickOutcome i).increment

/-- The snapshot ends and every stream's record changes: counts taken, windows added to, increments moved, rollovers
posted in ascending stream index (R36, R41, R42, R47, R48; assumption 9). -/
def State.integrateStreams (s : State) (label : Nat) : State :=
  let s1 := { s with
    fiscal := ⟨s.integratedStreams label, none⟩
    pulses := ⟨s.pulses.inputs.map fun x => { x with count := 0 }, s.addedWindows⟩ }
  s.rollovers.foldl
    (fun t i => t.post allParties .totalRollover i.val (BitVec.ofNat 32 (s1.fiscal.streams.get i).total)) s1

/-- Every stream when a frame of `length` ticks is completed (R56). -/
def State.averagedStreams (s : State) (length : Nat) : Table Stream 8 :=
  s.fiscal.streams.mapFin fun i st =>
    { st with
      frameSum := 0
      frameAverage := if s.img.present i then st.frameSum * 3600 / (length * 1000000000) else 0 }

/-- Stream kind codes (item 01h). -/
def StreamKind.code : StreamKind → Nat
  | .absent => 0 | .gas => 1 | .heat => 2 | .power => 3

/-- The last-tick fields of READ STREAM (R57, items 4 and 5). The mark speaks of the stream read (assumption 50). -/
def lastTickData : Option LastTick → List Byte
  | some l => markByte true ++ be 4 l.label ++ be 8 l.increment ++ be 4 l.carry ++ markByte l.substituted ++
      markByte l.degraded ++ markByte l.reverse
  | none => markByte false ++ be 4 0 ++ be 8 0 ++ be 4 0 ++ markByte false ++ markByte false ++ markByte false

/-- The data of READ STREAM (R57). -/
def streamData (s : State) (i : Fin 8) : List Byte :=
  let st := s.fiscal.streams.get i
  be 1 (s.img.streamKind i).code ++ be 1 (s.img.nat 0x0B i.val) ++ markByte (s.img.supplyMark i) ++
  be 4 st.total ++ be 4 st.residual ++ be 8 (if s.img.present i then st.frameAverage else 0) ++
  lastTickData st.last ++ markByte (s.pulses.windows.get i).doubtful ++
  be 4 st.errorSeconds ++ be 4 st.reverseSeconds ++
  be 8 (instantaneousFlow (s.pulses.inputs.get (s.img.mainInput i)) (s.img.pulseWeight i))

/-- READ STREAM past the state check (R57). -/
def readStreamRule (stream : Nat) (s : State) : State × Reply :=
  match finOf 8 stream with
  | none => refuse s .range
  | some i => answer s (streamData s i)

/-- READ STREAM (R57). -/
def execReadStream (p : Party) (stream : Nat) (s : State) : Out := .next (s.request p .readStream (readStreamRule stream))

end Sys2Proof.Machine
end

