-- ==== Sys2Proof/Machine/StoreOps.lean ====
section
/-! DEFINITION. The Record Store's shared operations (chapter 9): the record layout, sector states and the ring,
placement, the room test, the erase list, and how work joins the array queue. -/

namespace Sys2Proof.Machine

/-- The state with the Record Store changed. -/
def State.mapStore (s : State) (f : Store → Store) : State := { s with store := f s.store }

/-! ### Record layout (section 9.3) -/

/-- Length in units of a record with `n` interval entries. -/
def recordUnits (n : Nat) : Nat := 5 + divUp (10 * n) 32

/-- The length of the record of an account (R157). -/
def Account.units (a : Account) : Nat := recordUnits a.entries.length

/-- Flags as bits 0 upward. -/
def flagBits : List Bool → Nat
  | [] => 0
  | b :: bs => (if b then 1 else 0) + 2 * flagBits bs

/-- The 10 bytes of an interval entry. -/
def IntervalEntry.bytes (x : IntervalEntry) : List Byte :=
  be 1 x.offset ++ be 3 x.n ++ be 3 x.e ++ be 1 (flagBits [x.carried, x.outage, x.deviation, x.folded]) ++ be 2 x.folds

/-- The 18 bytes of a band. -/
def BandAccount.bytes (b : BandAccount) : List Byte := be 5 b.normal ++ be 5 b.degraded ++ be 8 b.charge

/-- The 4 bytes of an account's end (R139). An end past the last station time, in the last period of its range, is a free
value there (assumption 58). -/
def Account.endBytes (a : Account) : List Byte := be 4 (fit32 0 4294967295 Config.wideWord a.finish).toNat

/-- Header bytes 0 to 145. -/
def PeriodRecord.head (r : PeriodRecord) : List Byte :=
  let a := r.account
  be 1 0x5A ++ be 1 a.units ++ be 1 r.contract.val ++ be 1 (if r.isRecord then 1 else 0) ++
  be 1 (16 * r.seller + r.buyer) ++ be 1 (flagBits [a.extended, a.recommission, a.outage, a.unwarned, a.suspect]) ++
  be 1 a.bandCount ++ be 1 a.entries.length ++ be 4 a.period ++ be 4 a.start ++ a.endBytes ++ be 4 a.identity ++
  a.bands.entries.flatMap BandAccount.bytes ++ be 5 a.substituted ++ be 4 a.errorSeconds ++ be 4 a.outageSeconds ++ be 1 0

/-- The interval entries in order. -/
def PeriodRecord.tail (r : PeriodRecord) : List Byte := r.account.entries.flatMap IntervalEntry.bytes

/-- The entry check: 00000000h with no entries. -/
def PeriodRecord.entryCheck (r : PeriodRecord) : Nat := if r.account.entries = [] then 0 else crc32 r.tail

/-- The bytes of a period record: both marks clear, the last unit filled with 00h (R157). -/
def PeriodRecord.bytes (r : PeriodRecord) : List Byte :=
  let covered := r.head ++ be 4 r.entryCheck
  let body := covered ++ be 4 (crc32 covered) ++ be 4 r.sequence ++ [0xFF#8, 0xFF#8] ++ r.tail
  body ++ List.replicate (32 * r.account.units - body.length) 0#8

/-- The length of a record in units. -/
def PeriodRecord.units (r : PeriodRecord) : Nat := r.account.units

/-! ### Sectors -/

/-- The place of record sector `n` in the table of 54. -/
def recIndex (n : Nat) : Fin 54 := Fin.ofNat 54 (n - 10)

/-- The place of checkpoint sector `n` in the table of 8. -/
def ckptIndex (n : Nat) : Fin 8 := Fin.ofNat 8 (n - 2)

/-- Record sector `n`. -/
def Store.sector (st : Store) (n : Nat) : RecSector := st.sectors.get (recIndex n)

/-- The store with record sector `n` changed. -/
def Store.mapSector (st : Store) (n : Nat) (f : RecSector → RecSector) : Store :=
  { st with sectors := st.sectors.modify (recIndex n) f }

/-- The store with record sector `n` in another state. -/
def Store.setState (st : Store) (n : Nat) (x : RecState) : Store := st.mapSector n fun r => { r with state := x }

/-- The 53 other record sectors in ring order after `n` (R153). -/
def ringAfter (n : Nat) : List Nat := (List.range 53).map fun k => 10 + (n - 10 + 1 + k) % 54

/-- The ahead list (R162): the sectors after the write sector in ring order, RETIRED ones left out. -/
def Store.ahead (st : Store) : List Nat := (ringAfter st.writeSector).filter fun n => (st.sector n).state != .retired

/-- Every valid record of a sector carries both marks, or it holds none (R156). -/
def Store.allReleased (st : Store) (n : Nat) : Bool :=
  st.index.all fun e => e.sector != n || (match e.valid with | some v => v.sellerMark && v.buyerMark | none => true)

/-- FULL or RELEASABLE, as a written sector that the write position leaves becomes (R156, R158). -/
def Store.leftState (st : Store) (n : Nat) : RecState := if st.allReleased n then .releasable else .full

/-- A sector joins the erase list (R154, R156): once, becoming ERASING; a record sector's entries leave the index. -/
def Store.listErase (st : Store) (n : Nat) : Store :=
  let st1 := if st.eraseList.contains n then st else { st with eraseList := st.eraseList ++ [n] }
  if n < 2 then st1
  else if n < 10 then { st1 with ckpts := st1.ckpts.modify (ckptIndex n) fun c => { c with state := .erasing } }
  else { (st1.setState n .erasing) with index := st1.index.filter fun e => e.sector != n }

/-- The conditions of R162 tried along the ahead list: `open_` says that every sector before is ERASED or ERASING,
`ready` how many of those lack the retiring mark. -/
def joinAlong : List Nat → Bool → Nat → Store → Store
  | [], _, _, st => st
  | n :: rest, open_, ready, st =>
    let r := st.sector n
    let more := if r.retiring then ready else ready + 1
    if r.state = .releasable ∧ open_ ∧ ready < 2 then joinAlong rest true more (st.listErase n)
    else if r.state = .erased ∨ r.state = .erasing then joinAlong rest open_ more st
    else joinAlong rest false ready st

/-- The erase conditions are tested, and every sector that meets them joins the erase list (R162). -/
def Store.testErases (st : Store) : Store := joinAlong st.ahead true 0 st

/-! ### Placement (R158, R159) -/

/-- The next write sector: the first after the write sector that is neither RETIRED nor retiring (R158). -/
def Store.nextWrite (st : Store) : Option Nat := st.ahead.find? fun n => !(st.sector n).retiring

/-- The write sector takes records: it is FILLING, and no retiring mark stands on it. -/
def Store.writable (st : Store) : Bool :=
  (st.sector st.writeSector).state == .filling && !(st.sector st.writeSector).retiring

/-- The write position waits for its own sector's erase, after a store clear (R164). -/
def Store.writeErasing (st : Store) : Bool := (st.sector st.writeSector).state == .erasing

/-- Where a record of `m` units would be placed now; `none` when its program cannot be served (R154, R158). -/
def Store.place (st : Store) (m : Nat) : Option (Nat × Nat) :=
  if st.writable && decide (st.nextUnit + m ≤ 128) then some (st.writeSector, st.nextUnit)
  else if st.writeErasing then none
  else match st.nextWrite with
    | some t => if (st.sector t).state = .erased then some (t, 0) else none
    | none => none

/-- The write position moves to a placement: an old write sector is left, the new one becomes FILLING, and the erase
conditions are tested (R158, R162). -/
def Store.enter (st : Store) (sector unit : Nat) : Store :=
  if sector = st.writeSector then st
  else
    let st1 := if (st.sector st.writeSector).state = .filling then
      st.setState st.writeSector (st.leftState st.writeSector) else st
    { (st1.setState sector .filling) with writeSector := sector, nextUnit := unit }.testErases

/-- A position in thought (R159): the sector last used, its next unit (129 when nothing fits in it), the sectors used. -/
structure ThoughtPos where
  sector : Nat
  next : Nat
  used : List Nat
  deriving DecidableEq, Repr

/-- The walk forward in ring order to a new sector (R159). -/
def Store.roomWalk (st : Store) (used : List Nat) : List Nat → Option Nat
  | [] => none
  | n :: rest =>
    let r := st.sector n
    if r.state = .retired then st.roomWalk used rest
    else if r.retiring then
      if r.state = .releasable ∨ r.state = .erasing then st.roomWalk used rest else none
    else if (r.state = .erased ∨ r.state = .erasing ∨ r.state = .releasable) ∧ !used.contains n then some n
    else none

/-- One record placed in thought (R159). -/
def Store.thinkPlace (st : Store) (pos : ThoughtPos) (m : Nat) : Option ThoughtPos :=
  if pos.next + m ≤ 128 then some { pos with next := pos.next + m }
  else match st.roomWalk pos.used (ringAfter pos.sector) with
    | some n => some ⟨n, m, n :: pos.used⟩
    | none => none

/-- Records placed in thought one after the other. -/
def Store.thinkAll (st : Store) : ThoughtPos → List Nat → Bool
  | _, [] => true
  | pos, m :: rest => match st.thinkPlace pos m with
    | some pos' => st.thinkAll pos' rest
    | none => false

/-- The lengths of the reserved records, in queue order: the one being served first (R157, R159). A record whose program
PFW has dropped, or that a failure after PFW leaves unprogrammed, is no longer among them (assumption 68). -/
def Store.reserved (st : Store) : List Nat :=
  (match st.current with | some (.record r _ _) => [r.units] | _ => []) ++
  st.queue.filterMap fun op => match op with | .record r => some r.units | _ => none

/-- ROOM for a record of `m` units (R159). A write sector that waits for its own erase takes records in thought from the next
unit held for it (assumption 61). -/
def Store.hasRoom (st : Store) (m : Nat) : Bool :=
  let start : ThoughtPos :=
    ⟨st.writeSector, if st.writable || st.writeErasing then st.nextUnit else 129, [st.writeSector]⟩
  st.thinkAll start (st.reserved ++ [m])

/-- The index holds a valid record of a contract and period (R146, R185). -/
def Store.holdsRecord (st : Store) (contract period : Nat) : Bool :=
  st.index.any fun e => match e.valid with | some v => v.contract == contract && v.period == period | none => false

/-! ### Checkpoint targets (R169) -/

/-- The eight checkpoint sectors in ring order after `j`, `j` itself last. -/
def ckptRing (j : Nat) : List Nat := (List.range 8).map fun k => 2 + (j - 2 + 1 + k) % 8

/-- The checkpoint sector `n`. -/
def Store.ckpt (st : Store) (n : Nat) : CkptSector := st.ckpts.get (ckptIndex n)

/-- What a checkpoint program finds as its target. -/
inductive CkptTarget where
  | write (sector : Nat)
  | wait
  | none
  deriving DecidableEq, Repr

/-- The target of a checkpoint program (R169); after PFW, ERASING sectors are passed over (R170). -/
def Store.ckptTarget (st : Store) : CkptTarget :=
  let usable (n : Nat) : Bool :=
    (st.ckpt n).state == .erased || (!st.pfw && (st.ckpt n).state == .erasing)
  match (ckptRing st.lastCkpt).find? usable with
  | some n => if (st.ckpt n).state = .erased then .write n else .wait
  | none => .none

/-- The two sectors after `j` in the ring, RETIRED ones skipped (R169, R171). -/
def Store.twoAfter (st : Store) (j : Nat) : List Nat :=
  (((ckptRing j).take 7).filter fun n => (st.ckpt n).state != .retired).take 2

/-- Each of the two sectors after `j` that is not ERASED joins the erase list (R169, R171). -/
def Store.listTwoAfter (st : Store) (j : Nat) : Store :=
  (st.twoAfter j).foldl (fun t n => if (t.ckpt n).state = .erased then t else t.listErase n) st

/-! ### The array queue (R154, R155) -/

/-- The operation can be served now (R154). -/
def Store.canServe (st : Store) : ArrayOp → Bool
  | .record r => (st.place r.units).isSome
  | .mark .. => true
  | .read .. => true
  | .checkpoint _ => st.ckptTarget != .wait
  | .config sector _ _ => sectorBlank st.cells sector

/-- An operation joins the array queue; one that can be served suspends an erase in progress (R154, R155). -/
def Store.enqueue (st : Store) (op : ArrayOp) : Store :=
  let st1 := { st with queue := st.queue ++ [op] }
  match st.current with
  | some (.erase n) => if st1.canServe op then { st1 with current := none, suspended := some n } else st1
  | _ => st1

/-- A closing account is handed to the store: the record sequence counter rises and its record is reserved (R157). -/
def State.handAccount (s : State) (c : Fin 4) (a : Account) : State :=
  s.mapStore fun st =>
    let seq := (st.sequence + 1) % 4294967296
    { st with sequence := seq }.enqueue
      (.record ⟨c, s.img.isRecord c, partyCode (s.img.seller c), partyCode (s.img.buyer c), seq, a⟩)

/-- The recipients and form of STORE DEFECT (R160, R163, R167, R169). -/
def State.postDefect (s : State) (subject value : Nat) : State :=
  s.post allParties .storeDefect subject (BitVec.ofNat 32 value)

end Sys2Proof.Machine
end

