-- ==== Sys2Proof/Machine/Billing.lean ====
section
/-! DEFINITION. Tariffs and billing periods (chapter 8): pricing of carries, boundaries, close and extension, tariff
staging and consent, READ TARIFF and READ ACCOUNT. -/

namespace Sys2Proof.Machine

/-- The state with one contract changed. -/
def State.mapContract (s : State) (c : Fin 4) (f : Contract → Contract) : State :=
  { s with billing := { s.billing with contracts := s.billing.contracts.modify c f } }

/-- The running state of a contract. -/
def State.contract (s : State) (c : Fin 4) : Contract := s.billing.contracts.get c

/-! ### Tariffs (section 8.2) -/

/-- The minute of the day of an attribution second (R134). -/
def minuteOf (second dayOffset : Nat) : Nat := ((second + dayOffset) % 86400) / 60

/-- A tariff as it takes effect: each band's degraded price is fixed (R135). -/
def Tariff.fix (identity : Nat) (bands : List Band) (percentage : Nat) : Tariff :=
  ⟨identity, bands.map fun b => ⟨b, b.price * percentage / 100⟩, percentage⟩

/-- The first band, in table order, whose window contains a minute (R134). -/
def Tariff.bandAt (t : Tariff) (minute : Nat) : Option Nat := t.bands.findIdx? fun b => bandContains b.band minute

/-- The identity next above the last one issued (R135). -/
def nextIdentity (counter : Nat) : Nat := if counter < 4294967295 then counter + 1 else 1

/-! ### Crediting (R137, R138) -/

/-- Per-band kWh counts are held modulo 2⁴⁰ (R137). -/
def kwhModulus : Nat := 1099511627776

/-- Charges are held modulo 2⁶⁴ (R137). -/
def chargeModulus : Nat := 18446744073709551616

/-- A band of an account with kilowatt-hours added at the price their compliance gives (R137). -/
def BandAccount.credit (x : BandAccount) (kwh price degradedPrice : Nat) (degraded : Bool) : BandAccount :=
  if degraded then
    ⟨x.normal, (x.degraded + kwh) % kwhModulus, (x.charge + kwh * degradedPrice) % chargeModulus⟩
  else ⟨(x.normal + kwh) % kwhModulus, x.degraded, (x.charge + kwh * price) % chargeModulus⟩

/-- The account with one band changed. -/
def Account.mapBand (a : Account) (b : Nat) (f : BandAccount → BandAccount) : Account :=
  { a with bands := a.bands.modify (Fin.ofNat 6 b) f }

/-- One stream line priced, or added to band 0 without price under a contract that has no tariff (R137, R138). -/
def Account.priceLine (a : Account) (tariff : Option Tariff) (minute : Nat) (l : LastTick) : Account :=
  match tariff with
  | none => a.mapBand 0 fun x => x.credit l.carry 0 0 false
  | some t =>
    match t.bandAt minute with
    | none => a
    | some b =>
      match t.bands[b]? with
      | none => a
      | some pb => a.mapBand b fun x => x.credit l.carry pb.band.price pb.degraded l.degraded

/-- Substituted energy of a line (R138). -/
def Account.addSubstituted (a : Account) (l : LastTick) : Account :=
  if l.substituted then { a with substituted := (a.substituted + l.carry) % kwhModulus } else a

/-- One stream line credited. -/
def Account.creditLine (tariff : Option Tariff) (minute : Nat) (a : Account) (l : LastTick) : Account :=
  (a.priceLine tariff minute l).addSubstituted l

/-- A delivery entry credited: its lines in order, then the error second and the CLOCK SUSPECT flag (R137 to R139). -/
def Account.creditEntry (a : Account) (tariff : Option Tariff) (minute : Nat) (lines : List LastTick) (suspect : Bool) :
    Account :=
  let a1 := lines.foldl (Account.creditLine tariff minute) a
  { a1 with
    errorSeconds := raiseSeconds a1.errorSeconds (lines.any fun l => l.substituted)
    suspect := a1.suspect || suspect }

/-- The lines of a contract's delivery entry: the tick just integrated of each present stream that names it, in
ascending stream index (R53). -/
def State.deliveryLines (s : State) (c : Fin 4) : List LastTick :=
  (s.img.presentStreams.filter fun i => s.img.streamContract i == some c).filterMap fun i => (s.fiscal.streams.get i).last

/-- The delivery entry of a contract is credited to its open account (R137); a contract that no present stream names
has no entry (R53). -/
def State.creditContract (second : Nat) (s : State) (c : Fin 4) : State :=
  let lines := s.deliveryLines c
  if lines.isEmpty then s
  else s.mapContract c fun k => { k with
    opened := k.opened.creditEntry k.tariff (minuteOf second s.img.dayOffset) lines s.clock.suspect }

/-- The whole tick delivery, contracts in ascending order. -/
def State.creditDelivery (s : State) (second : Nat) : State := (List.finRange 4).foldl (State.creditContract second) s

/-! ### Periods (section 8.6) -/

/-- One step of a contract's grid of boundaries (R133). -/
def State.periodSpan (s : State) (c : Fin 4) : Nat := s.img.periodDays c * 86400

/-- The first boundary B1 of a contract (R133). -/
def firstBoundary (img : Image) (c : Fin 4) : Nat :=
  let after := (img.periodDays c - 1) * 86400 + 1
  after + (img.startHour c * 3600 + 86400 - (after + img.dayOffset) % 86400) % 86400

/-- An account as it opens (R139). Its end is the next boundary, also where that lies past the last station time
(assumption 58). -/
def State.openAccount (s : State) (period start finish : Nat) (tariff : Option Tariff) : Account :=
  { Account.empty with
    period := period, start := start, finish := finish
    identity := (match tariff with | some t => t.identity | none => 0)
    bandCount := (match tariff with | some t => t.bands.length | none => 1)
    recommission := s.station.state == .reconfiguring
    suspect := s.clock.suspect }

/-- The staged change as a period opens (R144). -/
def State.openTariff (s : State) (c : Fin 4) : State :=
  let k := s.contract c
  match k.staged with
  | none => s
  | some g =>
    if g.effective ≠ k.period then s
    else if g.consented then
      (s.mapContract c fun k => { k with tariff := some (Tariff.fix g.identity g.bands g.percentage), staged := none }).post
        (s.contractParties c) .tariffApplied c.val (BitVec.ofNat 32 g.identity)
    else
      (s.mapContract c fun k => { k with staged := none }).post
        (s.contractParties c) .tariffLapsed c.val (BitVec.ofNat 32 g.identity)

/-- A period closes at a boundary (R147); with `dropped`, the store already holds its record and the closing account is
dropped (R146). -/
def State.closePeriod (s : State) (c : Fin 4) (boundary : Nat) (dropped : Bool) : State :=
  let old := s.contract c
  let ended := { old.opened with finish := boundary }
  let s1 := s.mapContract c fun k => { k with closing := if dropped then none else some ended, period := k.period + 1 }
  let s2 := s1.openTariff c
  let s3 := s2.mapContract c fun k =>
    { k with opened := s2.openAccount k.period boundary (boundary + s.periodSpan c) k.tariff }
  let s4 := s3.post (s.contractParties c) .periodClosed c.val (BitVec.ofNat 32 ended.period)
  if dropped then s4 else s4.handAccount c ended

/-- A period is extended at a boundary (R149), with cause 1 NO ROOM or 2 CLOSING WAITING. -/
def State.extendPeriod (s : State) (c : Fin 4) (boundary cause : Nat) : State :=
  (s.mapContract c fun k => { k with opened := { k.opened with extended := true, finish := boundary + s.periodSpan c } }).post
    (s.contractParties c) .periodExtended c.val (BitVec.ofNat 32 (s.contract c).opened.period) 0 cause

/-- What R146 decides at a boundary. -/
def State.settleBoundary (s : State) (c : Fin 4) (boundary : Nat) : State :=
  let k := s.contract c
  if k.closing.isSome then s.extendPeriod c boundary 2
  else if s.store.holdsRecord c.val k.opened.period then s.closePeriod c boundary true
  else if s.store.hasRoom k.opened.units then s.closePeriod c boundary false
  else s.extendPeriod c boundary 1

/-- A contract's boundary, when the label is its next boundary (R133, R146). -/
def State.takeBoundary (label : Nat) (s : State) (c : Fin 4) : State :=
  if (s.contract c).nextBoundary = label then
    (s.settleBoundary c label).mapContract c fun k => { k with nextBoundary := k.nextBoundary + s.periodSpan c }
  else s

/-- The boundaries of all contracts at a label, in ascending contract index. -/
def State.takeBoundaries (s : State) (label : Nat) : State := (List.finRange 4).foldl (State.takeBoundary label) s

/-! ### Tariff requests (section 8.5) -/

/-- The checks that tariff requests share: RANGE for a contract above 3, STATE for the RECORD contract, DENIED for a
party other than the one named. -/
def judgePriced (s : State) (p : Party) (contract : Nat) (who : Fin 4 → Party) (rule : Fin 4 → State × Reply) :
    State × Reply :=
  match finOf 4 contract with
  | none => refuse s .range
  | some c =>
    if s.img.isRecord c then refuse s .state
    else if p ≠ who c then refuse s .denied
    else rule c

/-- The figures of a staged tariff lie in their ranges (R141, condition 5). -/
def tariffFiguresOk (bands : List Band) (percentage : Nat) : Bool :=
  decide (1 ≤ bands.length ∧ bands.length ≤ 6 ∧ percentage ≤ 100) &&
  bands.all fun b => decide (b.start ≤ 1439 ∧ b.stop ≤ 1439 ∧ b.price ≤ 10000000)

/-- STAGE TARIFF past its rights step (R141, conditions 5 to 9). -/
def stageRule (effective : Nat) (bands : List Band) (percentage : Nat) (s : State) (c : Fin 4) : State × Reply :=
  let k := s.contract c
  if !tariffFiguresOk bands percentage then refuse s .range
  else match firstUncovered bands with
  | some m => (s, .done .range (be 2 m))
  | none =>
    if effective < k.opened.period + 1 ∨ k.opened.period + 12 < effective then refuse s .range
    else if (match k.staged with | some g => g.consented | none => false) then refuse s .state
    else
      let identity := nextIdentity s.billing.counter
      let s1 := { s with billing := { s.billing with counter := identity } }
      let s2 := s1.mapContract c fun k =>
        { k with staged := some ⟨identity, effective, bands, percentage, false, s.clock.time⟩ }
      (s2.post (s.contractParties c) .tariffStaged c.val (BitVec.ofNat 32 identity),
        .done .ok (be 4 identity ++ be 4 effective ++ optField 4 (k.staged.map Staged.identity)))

/-- STAGE TARIFF (R141). -/
def execStageTariff (p : Party) (contract effective : Nat) (bands : List Band) (percentage : Nat) (s : State) : Out :=
  .next (s.request p .stageTariff fun s => judgePriced s p contract s.img.seller (stageRule effective bands percentage s))

/-- CONSENT TARIFF past its rights step (R142, conditions 5 to 7). -/
def consentRule (identity : Nat) (s : State) (c : Fin 4) : State × Reply :=
  match (s.contract c).staged with
  | none => refuse s .state
  | some g =>
    if identity ≠ g.identity then refuse s .mismatch
    else (s.mapContract c fun k => { k with staged := some { g with consented := true } },
      .done .ok (be 4 g.identity ++ be 4 g.effective))

/-- CONSENT TARIFF (R142). -/
def execConsentTariff (p : Party) (contract identity : Nat) (s : State) : Out :=
  .next (s.request p .consentTariff fun s => judgePriced s p contract s.img.buyer (consentRule identity s))

/-- WITHDRAW TARIFF past its rights step (R143). -/
def withdrawRule (s : State) (c : Fin 4) : State × Reply :=
  match (s.contract c).staged with
  | none => refuse s .state
  | some g =>
    if g.consented then refuse s .state
    else ((s.mapContract c fun k => { k with staged := none }).post (s.contractParties c) .tariffLapsed c.val
        (BitVec.ofNat 32 g.identity) 1,
      .done .ok (be 4 g.identity))

/-- WITHDRAW TARIFF (R143). -/
def execWithdrawTariff (p : Party) (contract : Nat) (s : State) : Out :=
  .next (s.request p .withdrawTariff fun s => judgePriced s p contract s.img.seller (withdrawRule s))

/-! ### Reading (R136, R140) -/

/-- A band as a request or a response spells it: start minute, end minute, price. -/
def bandBytes (b : Band) : List Byte := be 2 b.start ++ be 2 b.stop ++ be 4 b.price

/-- The tariff in force (R136). -/
def tariffData : Option Tariff → List Byte
  | none => []
  | some t => be 4 t.identity ++ be 4 t.bands.length ++
      t.bands.flatMap (fun b => bandBytes b.band ++ be 4 b.degraded) ++ be 1 t.percentage

/-- The staged change, with a mark telling whether one is present (R136). -/
def stagedData : Option Staged → List Byte
  | none => markByte false
  | some g => markByte true ++ be 4 g.identity ++ be 4 g.effective ++ be 4 g.bands.length ++
      g.bands.flatMap bandBytes ++ be 1 g.percentage ++ markByte g.consented ++ be 4 g.stagedAt

/-- READ TARIFF past the state check (R136). -/
def readTariffRule (p : Party) (contract which : Nat) (s : State) : State × Reply :=
  match finOf 4 contract with
  | none => refuse s .range
  | some c =>
    if 1 < which then refuse s .range
    else if p ≠ s.img.seller c ∧ p ≠ s.img.buyer c then refuse s .denied
    else if s.img.isRecord c then refuse s .state
    else answer s (if which = 0 then tariffData (s.contract c).tariff else stagedData (s.contract c).staged)

/-- READ TARIFF (R136). -/
def execReadTariff (p : Party) (contract which : Nat) (s : State) : Out :=
  .next (s.request p .readTariff (readTariffRule p contract which))

/-- The flags of an account as READ ACCOUNT gives them: one byte, with the bits of byte 5 of a period record
(section 9.3; assumption 8). -/
def Account.flagByte (a : Account) : Nat := flagBits [a.extended, a.recommission, a.outage, a.unwarned, a.suspect]

/-- Part of an account (R140). -/
def accountPart (c : Fin 4) (a : Account) (part : Nat) : List Byte :=
  if part = 0 then
    be 1 c.val ++ be 4 a.period ++ be 4 a.start ++ a.endBytes ++ be 1 a.flagByte ++ be 4 a.identity ++
    be 4 a.bandCount ++ be 5 a.substituted ++ be 4 a.errorSeconds ++ be 4 a.outageSeconds ++ be 4 a.entries.length
  else if part = 1 then (a.bands.entries.take 3).flatMap BandAccount.bytes
  else if part = 2 then (a.bands.entries.drop 3).flatMap BandAccount.bytes
  else (a.entries.filter fun x => decide (12 * (part - 3) ≤ x.offset ∧ x.offset ≤ 12 * (part - 3) + 11)).flatMap
    IntervalEntry.bytes

/-- READ ACCOUNT past the state check (R140). -/
def readAccountRule (p : Party) (contract which part : Nat) (s : State) : State × Reply :=
  match finOf 4 contract with
  | none => refuse s .range
  | some c =>
    if 1 < which then refuse s .range
    else if p ≠ s.img.seller c ∧ p ≠ s.img.buyer c then refuse s .denied
    else if (if s.img.isRecord c then 10 else 2) < part then refuse s .range
    else if which = 0 then answer s (accountPart c (s.contract c).opened part)
    else match (s.contract c).closing with
      | none => answer s (markByte false)
      | some a => answer s (accountPart c a part)

/-- READ ACCOUNT (R140). -/
def execReadAccount (p : Party) (contract which part : Nat) (s : State) : Out :=
  .next (s.request p .readAccount (readAccountRule p contract which part))

end Sys2Proof.Machine
end

