-- ==== Sys2Proof/Machine/ExportTracking.lean ====
section
/-! DEFINITION. The Export Tracker (chapter 7): nominations, the hand-off of a tick, interval entries and folding,
power duty fuel, READ INTERVAL. -/

namespace Sys2Proof.Machine

/-- The state with the tracker changed. -/
def State.mapTracker (s : State) (f : Tracker → Tracker) : State := { s with tracker := f s.tracker }

/-- The elapsed time of the running interval at a station time (R116). -/
def State.elapsed (s : State) (t : Nat) : Int :=
  (t : Int) + s.img.dayOffset - (s.tracker.running : Int) * s.img.intervalLength

/-- Expected export X at a station time (R123). -/
def State.expectedExport (s : State) (t : Nat) : Int := s.tracker.n * s.elapsed t / s.img.intervalLength

/-- Deviation D at a station time (R123). -/
def State.deviation (s : State) (t : Nat) : Int := s.tracker.e - s.expectedExport t

/-- The tolerance on N (R123). -/
def State.toleranceKwh (s : State) : Nat := s.tracker.n * s.img.tolerance / 100

/-- The deviation is judged at a label, and F7 asked to follow (R123). -/
def State.judgeDeviation (s : State) (label : Nat) : State :=
  let behind := decide (s.deviation label < -(s.toleranceKwh : Int))
  (s.mapTracker fun x => { x with behind := behind }).askFlag flagBehind behind

/-- The largest N or E that an interval entry holds (R127). -/
def entryLimit : Nat := 16777215

/-- The difference between E and N, without sign, exceeds the tolerance (R124). -/
def State.deviates (s : State) : Bool :=
  decide (s.toleranceKwh < max s.tracker.e s.tracker.n - min s.tracker.e s.tracker.n)

/-- An interval folded into an entry (R127). -/
def IntervalEntry.fold (x : IntervalEntry) (t : Tracker) (deviation : Bool) : IntervalEntry :=
  { x with
    n := min entryLimit (x.n + t.n), e := min entryLimit (x.e + t.e)
    carried := x.carried || t.carried, outage := x.outage || t.outage, deviation := x.deviation || deviation
    folded := true, folds := min 65535 (x.folds + 1) }

/-- The account with a closed interval appended at its offset, or folded into offset 95 (R126, R127). -/
def Account.addInterval (a : Account) (offset : Nat) (t : Tracker) (deviation : Bool) : Account :=
  if offset ≤ 95 then
    { a with entries := a.entries ++
      [⟨offset, min entryLimit t.n, min entryLimit t.e, t.carried, t.outage, deviation, false, 0⟩] }
  else { a with entries := a.entries.map fun x => if x.offset = 95 then x.fold t deviation else x }

/-- The number of the interval that contains a station time (R116). -/
def intervalOf (img : Image) (t : Nat) : Nat := (t + img.dayOffset) / img.intervalLength

/-- The offset that the running interval takes in an account (R126). -/
def State.entryOffset (s : State) (a : Account) : Nat := s.tracker.running - intervalOf s.img a.start

/-- The running interval is closed (R124, R126): its entry joins the RECORD contract's open account, and EXPORT
DEVIATION is posted when due. -/
def State.closeInterval (s : State) : State :=
  match s.img.recordContract with
  | none => s
  | some c =>
    let offset := s.entryOffset (s.contract c).opened
    let s1 := s.mapContract c fun k => { k with opened := k.opened.addInterval offset s.tracker s.deviates }
    if s.deviates then
      s1.post [.plant, .works] .exportDeviation (min offset 95)
        (fit32 (-2147483648) 2147483647 Config.wideWord ((s.tracker.e : Int) - s.tracker.n))
        ((if s.tracker.carried then 1 else 0) + (if s.tracker.outage then 2 else 0))
    else s1

/-- The next interval begins (R125): N from the queue head when it names the interval, otherwise carried. -/
def Tracker.beginNext (t : Tracker) : Tracker :=
  let t1 := { t with running := t.running + 1, e := 0, outage := false }
  match t.queue with
  | h :: rest => if h.interval = t.running + 1 then { t1 with n := h.kwh, carried := false, queue := rest }
      else { t1 with carried := true }
  | [] => { t1 with carried := true }

/-- The label ends the running interval (R122). -/
def State.endsInterval (s : State) (label : Nat) : Bool := (label + s.img.dayOffset) % s.img.intervalLength == 0

/-- The hand-off of a tick (R122). -/
def State.handOff (s : State) (label carry : Nat) : State :=
  let s1 := s.mapTracker fun t => { t with e := min 4294967295 (t.e + carry) }
  if s.endsInterval label then (s1.closeInterval.mapTracker Tracker.beginNext).judgeDeviation label
  else s1.judgeDeviation label

/-! ### Power duty fuel (R129) -/

/-- The power duty fuel at the current station time. -/
def State.powerDutyFuel (s : State) : Nat :=
  let remaining : Int := s.img.intervalLength - s.elapsed s.clock.time
  let tr : Nat := if remaining < s.img.frameLength then s.img.frameLength else remaining.toNat
  divUp (divUp ((s.tracker.n - s.tracker.e) * 3600) tr * 100) s.img.powerEfficiency

/-! ### Nominations (R118 to R120) -/

/-- The seller of the RECORD contract, who may nominate (R5). -/
def State.isNominator (s : State) (p : Party) : Bool :=
  match s.img.recordContract with
  | some c => p == s.img.seller c
  | none => false

/-- Seconds from now to the start of an interval (R116, R119). -/
def State.secondsToStart (s : State) (interval : Nat) : Int :=
  (interval : Int) * s.img.intervalLength - s.img.dayOffset - s.clock.time

/-- The gate has closed on an interval: its start lies nearer than the gate (R119), or is now or at most a second away under
any gate above 0 (R121; assumption 51). -/
def State.gateClosed (s : State) (interval : Nat) : Bool :=
  decide (s.secondsToStart interval < s.img.gate ∨ 0 < s.img.gate ∧ s.secondsToStart interval ≤ 1)

/-- Conditions 2 to 4 of R119, shared by NOMINATE and CANCEL NOMINATION. -/
def judgeNomination (s : State) (p : Party) (interval kwh : Nat) (rule : State × Reply) : State × Reply :=
  if !s.isNominator p then refuse s .denied
  else if interval < s.tracker.running + 1 ∨ s.tracker.running + 8 < interval ∨ 1000000 < kwh then refuse s .range
  else if s.gateClosed interval then refuse s .tooLate
  else rule

/-- The queue with a nomination entered at its place, replacing one for the same interval (R118). -/
def enterNomination : List Nomination → Nomination → List Nomination
  | [], x => [x]
  | h :: rest, x =>
    if x.interval < h.interval then x :: h :: rest
    else if x.interval = h.interval then x :: rest
    else h :: enterNomination rest x

/-- The energy queued for an interval, if any. -/
def nominated (q : List Nomination) (interval : Nat) : Option Nat :=
  (q.find? fun x => x.interval == interval).map Nomination.kwh

/-- NOMINATE past the state check (R119). -/
def nominateRule (p : Party) (interval kwh : Nat) (s : State) : State × Reply :=
  judgeNomination s p interval kwh
    (let q := enterNomination s.tracker.queue ⟨interval, kwh⟩
     (s.mapTracker fun t => { t with queue := q },
      .done .ok (be 4 interval ++ be 4 kwh ++ optField 4 (nominated s.tracker.queue interval) ++ be 4 q.length)))

/-- NOMINATE (R119). -/
def execNominate (p : Party) (interval kwh : Nat) (s : State) : Out :=
  .next (s.request p .nominate (nominateRule p interval kwh))

/-- CANCEL NOMINATION past the state check (R120). -/
def cancelRule (p : Party) (interval : Nat) (s : State) : State × Reply :=
  judgeNomination s p interval 0
    (s.mapTracker fun t => { t with queue := t.queue.filter fun x => x.interval != interval },
      .done .ok (optField 4 (nominated s.tracker.queue interval)))

/-- CANCEL NOMINATION (R120). -/
def execCancelNomination (p : Party) (interval : Nat) (s : State) : Out :=
  .next (s.request p .cancelNomination (cancelRule p interval))

/-! ### READ INTERVAL (R130) -/

/-- The data of READ INTERVAL. The interval length and the seconds remaining, whose width no rule gives, take 2 bytes, so
that a full queue fits the 120 bytes of a response (assumption 8). -/
def intervalData (s : State) : List Byte :=
  let t := s.tracker
  let now := s.clock.time
  be 2 s.img.intervalLength ++ be 4 t.running ++
  beInt 4 ((t.running : Int) * s.img.intervalLength - s.img.dayOffset) ++
  be 4 t.n ++ markByte t.carried ++ markByte t.outage ++ be 4 t.e ++
  beInt 4 (s.expectedExport now) ++
  be 4 (fit32 (-2147483648) 2147483647 Config.wideWord (s.deviation now)).toNat ++ be 4 s.toleranceKwh ++
  beInt 2 (s.img.intervalLength - s.elapsed now) ++
  markByte t.behind ++ markByte (s.alloc.flags.get flagBehind).set ++
  (match t.fuel with
    | some f => markByte true ++ be 8 f.fuel ++ be 4 f.frame
    | none => markByte false ++ be 8 0 ++ be 4 0) ++
  be 4 t.queue.length ++ t.queue.flatMap fun x => be 4 x.interval ++ be 4 x.kwh

/-- READ INTERVAL (R130). -/
def execReadInterval (p : Party) (s : State) : Out := .next (s.request p .readInterval fun s => answer s (intervalData s))

end Sys2Proof.Machine
end

