-- ==== Sys2Proof/Machine/Grants.lean ====
section
/-! DEFINITION. The grant protocol (chapter 6): posting and absorbing frame grants, confirmation timer expiries, the
operating party's answers, SET LIMITS and READ CONSUMER. -/

namespace Sys2Proof.Machine

/-- The consumer of an entry. -/
def State.consumer (s : State) (e : Fin 12) : Consumer := s.alloc.consumers.get e

/-- The state with one consumer record replaced. -/
def State.setConsumer (s : State) (e : Fin 12) (c : Consumer) : State :=
  s.mapAlloc fun a => { a with consumers := a.consumers.set e c }

/-- The consumer settles (R97): RUNNING above a confirmed grant of 0 and READY at 0; pending grant, timer and retry
count go in the same event. -/
def Consumer.settle (c : Consumer) : Consumer :=
  { c with state := if c.confirmed = 0 then .ready else .running, pending := none, retry := 0, timer := 0 }

/-- GRANT goes to the operating party alone, with the grant id and the RETRY mark (R99, R101). -/
def State.postGrant (s : State) (e : Fin 12) (grant id : Nat) (retry : Bool) : State :=
  s.post (s.img.operator e).toList .grant e.val (BitVec.ofNat 32 grant) (if retry then 1 else 0) id

/-- A change that must be confirmed: to or from 0, or by at least the confirm threshold (R98). -/
def Consumer.mustPost (c : Consumer) (grant : Nat) : Bool :=
  ((grant == 0) != (c.confirmed == 0)) ||
  decide (c.limits.threshold ≤ max grant c.confirmed - min grant c.confirmed)

/-- The consumer once a change is posted (R99, steps 1 to 4 and 6). -/
def Consumer.posting (c : Consumer) (grant time : Nat) : Consumer :=
  { c with
    id := (c.id + 1) % 256, pending := some grant, posted := some grant, retry := 0, state := .changing, timer := time }

/-- A frame grant handed to a consumer (R98, R99). -/
def State.handGrant (s : State) (e : Fin 12) (grant : Nat) : State :=
  let c := s.consumer e
  if grant = c.confirmed then s
  else if c.mustPost grant then
    let c' := c.posting grant s.img.confirmationTime
    (s.setConsumer e c').postGrant e grant c'.id false
  else s.setConsumer e { c with confirmed := grant }.settle

/-! ### Expiries -/

/-- A consumer at a second boundary (R100). -/
def Consumer.atBoundary (c : Consumer) : Consumer :=
  if c.state = .changing then { c with timer := c.timer - 1 } else c

/-- An expiry of a consumer with a given retry count is due (R100). -/
def State.expiryDue (s : State) (e : Fin 12) (retry : Nat) : Bool :=
  s.blocksRun && (s.consumer e).state == .changing && (s.consumer e).timer == 0 && (s.consumer e).retry == retry

/-- The first expiry (R101). -/
def State.firstExpiry (s : State) (e : Fin 12) : State :=
  let c := s.consumer e
  (s.setConsumer e { c with retry := 1, timer := s.img.confirmationTime }).postGrant e (c.pending.getD 0) c.id true

/-- The second expiry (R102). -/
def State.secondExpiry (s : State) (e : Fin 12) : State :=
  let c := s.consumer e
  (s.setConsumer e { c with state := .unresponsive, pending := none, retry := 0, timer := 0 }).post
    allParties .unresponsive e.val (BitVec.ofNat 32 c.confirmed)

/-- FIRST_EXPIRY (R101). -/
def execFirstExpiry (e : Fin 12) (s : State) : Out := .next (if s.expiryDue e 0 then s.firstExpiry e else s)

/-- SECOND_EXPIRY (R102). -/
def execSecondExpiry (e : Fin 12) (s : State) : Out := .next (if s.expiryDue e 1 then s.secondExpiry e else s)

/-! ### Answers (section 6.3) -/

/-- An accepted request: the record is replaced, and the response shows it. -/
def acceptConsumer (s : State) (e : Fin 12) (c : Consumer) (r : Result := .ok) : State × Reply :=
  (s.setConsumer e c, .done r (consumerData c))

/-- CONFIRM GRANT past R103 (R104). -/
def confirmRule (id : Nat) (s : State) (e : Fin 12) : State × Reply :=
  let c := s.consumer e
  match c.state with
  | .changing =>
    if id = c.id then acceptConsumer s e { c with confirmed := c.pending.getD c.confirmed }.settle
    else refuse s .mismatch
  | .unresponsive =>
    if id = c.id then acceptConsumer s e { c with confirmed := c.posted.getD c.confirmed }.settle
    else refuse s .mismatch
  | _ => refuse s .state

/-- CONFIRM GRANT (R104). -/
def execConfirmGrant (p : Party) (entry id : Nat) (s : State) : Out :=
  .next (s.request p .confirmGrant fun s => judgeEntry s p entry (confirmRule id s))

/-- The consumer once a posted grant is refused (R105). -/
def Consumer.declined (c : Consumer) (acceptable : Nat) : Consumer :=
  { c with cap := some (clampTop c.limits.maximum acceptable).1 }.settle

/-- REFUSE GRANT past R103 (R105). -/
def refuseGrantRule (id acceptable : Nat) (s : State) (e : Fin 12) : State × Reply :=
  let c := s.consumer e
  if c.state = .changing ∨ c.state = .unresponsive then
    if id = c.id then
      acceptConsumer s e (c.declined acceptable) (okOrClamped (clampTop c.limits.maximum acceptable).2)
    else refuse s .mismatch
  else refuse s .state

/-- REFUSE GRANT (R105). -/
def execRefuseGrant (p : Party) (entry id acceptable : Nat) (s : State) : Out :=
  .next (s.request p .refuseGrant fun s => judgeEntry s p entry (refuseGrantRule id acceptable s))

/-- The consumer once its trip is reported (R106). -/
def Consumer.tripped (c : Consumer) : Consumer :=
  { c with state := .tripped, confirmed := 0, pending := none, retry := 0, timer := 0 }

/-- REPORT TRIP past R103 (R106). -/
def tripRule (s : State) (e : Fin 12) : State × Reply :=
  let c := s.consumer e
  if c.state = .tripped then answer s (consumerData c) else acceptConsumer s e c.tripped

/-- REPORT TRIP (R106). -/
def execReportTrip (p : Party) (entry : Nat) (s : State) : Out :=
  .next (s.request p .reportTrip fun s => judgeEntry s p entry (tripRule s))

/-- The consumer once its firing is reported (R107). -/
def Consumer.firingAt (c : Consumer) (firing : Nat) : Consumer :=
  { c with confirmed := (clampTop c.limits.maximum firing).1, cap := none }.settle

/-- REPORT READY past R103 (R107). -/
def readyRule (firing : Nat) (s : State) (e : Fin 12) : State × Reply :=
  let c := s.consumer e
  acceptConsumer s e (c.firingAt firing) (okOrClamped (clampTop c.limits.maximum firing).2)

/-- REPORT READY (R107). -/
def execReportReady (p : Party) (entry firing : Nat) (s : State) : Out :=
  .next (s.request p .reportReady fun s => judgeEntry s p entry (readyRule firing s))

/-- PARK and UNPARK past R103 (R108). -/
def parkRule (parked : Bool) (s : State) (e : Fin 12) : State × Reply :=
  acceptConsumer s e { s.consumer e with parked := parked }

/-- PARK (R108). -/
def execPark (p : Party) (entry : Nat) (s : State) : Out :=
  .next (s.request p .park fun s => judgeEntry s p entry (parkRule true s))

/-- UNPARK (R108). -/
def execUnpark (p : Party) (entry : Nat) (s : State) : Out :=
  .next (s.request p .unpark fun s => judgeEntry s p entry (parkRule false s))

/-- Limits within the hard bounds of an entry (R109). -/
def limitsOk (img : Image) (e : Fin 12) (l : Limits) : Bool :=
  decide (img.hardMin e ≤ l.minimum ∧ l.minimum ≤ l.maximum ∧ l.maximum ≤ img.hardMax e ∧
    1 ≤ l.ramp ∧ l.ramp ≤ img.hardMax e ∧ 1 ≤ l.threshold ∧ l.threshold ≤ img.hardMax e)

/-- Limits put in force: a refusal cap above the new maximum is lowered to it (R18, R109). -/
def Consumer.limitTo (c : Consumer) (l : Limits) : Consumer :=
  { c with limits := l, cap := c.cap.map fun k => min k l.maximum }

/-- SET LIMITS past R103 (R109). -/
def setLimitsRule (l : Limits) (s : State) (e : Fin 12) : State × Reply :=
  if limitsOk s.img e l then acceptConsumer s e ((s.consumer e).limitTo l) else refuse s .range

/-- SET LIMITS (R109). -/
def execSetLimits (p : Party) (entry minimum maximum ramp threshold : Nat) (s : State) : Out :=
  .next (s.request p .setLimits fun s => judgeEntry s p entry (setLimitsRule ⟨minimum, maximum, ramp, threshold⟩ s))

/-! ### READ CONSUMER (R114) -/

/-- Disposition codes (R189). -/
def Disposition.code : Disposition → Nat
  | .walked => 0 | .absent => 1 | .tripped => 2 | .held => 3 | .parked => 4 | .ineligible => 5 | .shed => 6

/-- The last frame that walked or skipped the entry; a free value before the first frame since the last start. -/
def lastFrameData (s : State) (e : Fin 12) : List Byte :=
  match s.alloc.summary with
  | some f => be 4 f.number ++ be 1 (f.outcomes.get e).disposition.code
  | none => be 5 (Config.unreportedFrame e.val).toNat

/-- The data of READ CONSUMER. -/
def consumerRecordData (s : State) (e : Fin 12) : List Byte :=
  let c := s.consumer e
  be 1 (s.img.nat 0x20 e.val) ++ be 1 (s.img.nat 0x21 e.val) ++ be 1 (s.img.nat 0x22 e.val) ++
  be 1 (s.img.nat 0x29 e.val) ++ be 1 (s.img.nat 0x2A e.val) ++ be 4 (s.img.hardMin e) ++ be 4 (s.img.hardMax e) ++
  be 4 c.limits.minimum ++ be 4 c.limits.maximum ++ be 4 c.limits.ramp ++ be 4 c.limits.threshold ++
  be 1 c.state.code ++ markByte c.parked ++ be 4 c.confirmed ++ optField 4 c.pending ++ optField 4 c.posted ++ be 1 c.id ++
  be 4 c.retry ++ be 4 c.timer ++ optField 4 c.cap ++ lastFrameData s e

/-- READ CONSUMER past the state check. -/
def readConsumerRule (entry : Nat) (s : State) : State × Reply :=
  match finOf 12 entry with
  | none => refuse s .range
  | some e => answer s (consumerRecordData s e)

/-- READ CONSUMER (R114). -/
def execReadConsumer (p : Party) (entry : Nat) (s : State) : Out :=
  .next (s.request p .readConsumer (readConsumerRule entry))

end Sys2Proof.Machine
end

