-- ==== Sys2Proof/Machine/Allocation.lean ====
section
/-! DEFINITION. The allocation frame (chapter 5): supply and holder, held grants, duty fuel and passed requests, the
ladder walk and rotation, flare, the hand-over and the frame summary, and READ FRAME. -/

namespace Sys2Proof.Machine

/-! ### Supply and holder -/

/-- The supply S (R75). -/
def State.supply (s : State) : Nat :=
  ((s.img.presentStreams.filter s.img.supplyMark).map fun i => (s.fiscal.streams.get i).frameAverage).sum

/-- The holder band that a level gives after a previous band (R76). -/
def nextBand (img : Image) (previous : HolderBand) (level : Int) : HolderBand :=
  if img.holderHH ≤ level then .highhigh
  else if previous = .highhigh ∧ img.holderHH - img.hysteresis < level then .highhigh
  else if img.holderHi ≤ level then .high
  else if (previous = .high ∨ previous = .highhigh) ∧ img.holderHi - img.hysteresis < level then .high
  else if level ≤ img.holderLL then .lowlow
  else if previous = .lowlow ∧ level < img.holderLL + img.hysteresis then .lowlow
  else if level ≤ img.holderLo then .low
  else if (previous = .low ∨ previous = .lowlow) ∧ level < img.holderLo + img.hysteresis then .low
  else .normal

/-- Holder band codes (R77, R189). -/
def HolderBand.code : HolderBand → Nat
  | .lowlow => 0 | .low => 1 | .normal => 2 | .high => 3 | .highhigh => 4

/-- The holder term H (R78): rounded toward zero, then clamped. -/
def holderTerm (img : Image) (level cv : Int) : Int :=
  let h0 := ((level - img.holderTarget) * cv * 36).tdiv (10 * img.tau)
  max (-(img.hmax : Int)) (min img.hmax h0)

/-- The distributable rate A (R79). -/
def distributable (supply : Nat) (term : Int) : Nat := ((supply : Int) + term).toNat

/-- What a consumer adds to the held sum (R79). -/
def Consumer.holds (c : Consumer) : Nat :=
  match c.state with
  | .changing => c.pending.getD 0
  | .unresponsive => c.confirmed
  | _ => 0

/-- The held sum (R79). -/
def State.heldSum (s : State) : Nat := (s.alloc.consumers.entries.map Consumer.holds).sum

/-! ### The walkable set (R72, R80) -/

/-- An eligibility condition is met by the flags as read (R72). -/
def Eligibility.met (flags : Table Flag 8) : Eligibility → Bool
  | .always => true
  | .whenSet n => (flags.get (Fin.ofNat 8 n)).set
  | .whenClear n => !(flags.get (Fin.ofNat 8 n)).set

/-- An entry is shed (R80). -/
def shed (img : Image) (band : HolderBand) (e : Fin 12) : Bool :=
  band == .lowlow && decide (img.shedRank ≤ 7 ∧ img.shedRank ≤ img.rank e)

/-- Walked, or skipped with the first reason that applies (R80). -/
def State.disposition (s : State) (band : HolderBand) (e : Fin 12) : Disposition :=
  let c := s.consumer e
  if (s.img.operator e).isNone ∨ c.state = .out then .absent
  else if c.state = .tripped then .tripped
  else if c.state = .unresponsive ∨ c.state = .changing then .held
  else if c.parked then .parked
  else if !(s.img.eligibility e).met s.alloc.flags then .ineligible
  else if shed s.img band e then .shed
  else .walked

/-- The entry takes part in duty fuel, passed requests and the walk (R80). -/
def State.walkable (s : State) (band : HolderBand) (e : Fin 12) : Bool := s.disposition band e == .walked

/-! ### Ladder order (R86) -/

/-- The rotation order of a rank: from its pointer through ascending entries, the present ones of that rank. -/
def State.rotationOrder (s : State) (r : Fin 8) : List (Fin 12) :=
  ((List.range 12).map fun k => Fin.ofNat 12 ((s.alloc.pointers.get r).val + k)).filter fun e =>
    (s.img.operator e).isSome && s.img.rank e == r.val

/-- The whole ladder, rank 0 to 7. -/
def State.ladder (s : State) : List (Fin 12) := (List.finRange 8).flatMap s.rotationOrder

/-! ### Duty fuel and requests (R81 to R85) -/

/-- The value in use of a declaration. -/
def State.declInUse (s : State) (d : Fin 13) : Nat := declValue s.img d (s.decls.get d)

/-- The declaration of a consumer's gas request. -/
def requestDecl (e : Fin 12) : Fin 13 := Fin.castSucc e

/-- HEAT DEMAND is declaration 12. -/
def heatDecl : Fin 13 := 12

/-- The recovered heat Qr; absent when no stream is named (R81). -/
def State.recovered (s : State) : Option Nat := s.img.recoveredHeat.map fun i => (s.fiscal.streams.get i).frameAverage

/-- The heat duty fuel F_h (R81). -/
def State.heatDutyFuel (s : State) : Nat :=
  divUp ((s.declInUse heatDecl - s.recovered.getD 0) * 100) s.img.heatEfficiency

/-- Fuel shared out along consumers in ladder order: each share, and what is left unplaced (R83). -/
def shareFuel (room : Fin 12 → Nat) : Nat → List (Fin 12) → List (Fin 12 × Nat) × Nat
  | fuel, [] => ([], fuel)
  | fuel, e :: rest =>
    let share := min fuel (room e)
    let r := shareFuel room (fuel - share) rest
    ((e, share) :: r.1, r.2)

/-- The duty fuel of one kind among its walkable consumers (R83). -/
def State.placeFuel (s : State) (band : HolderBand) (d : Duty) (fuel : Nat) : List (Fin 12 × Nat) × Nat :=
  shareFuel (fun e => (s.consumer e).limits.maximum - s.declInUse (requestDecl e)) fuel
    (s.ladder.filter fun e => s.walkable band e && s.img.duty e == d)

/-- The share of an entry, 0 when it has none. -/
def shareOf (shares : List (Fin 12 × Nat)) (e : Fin 12) : Nat :=
  match shares.find? fun x => x.1 == e with
  | some x => x.2
  | none => 0

/-- The unmet request of a consumer that passes it on (R84). -/
def State.unmet (s : State) (e : Fin 12) : Nat :=
  let c := s.consumer e
  if c.state = .tripped ∨ c.state = .unresponsive then s.declInUse (requestDecl e) - c.confirmed else 0

/-- What an entry passes to its alternate, with the alternate (R84). -/
def State.passedOut (s : State) (band : HolderBand) (e : Fin 12) : Option (Nat × Fin 12) :=
  match s.img.alternate e with
  | some a => if (s.img.operator e).isSome ∧ s.walkable band a ∧ 0 < s.unmet e then some (s.unmet e, a) else none
  | none => none

/-- The passed-in amount of an entry (R84). -/
def State.passedIn (s : State) (band : HolderBand) (e : Fin 12) : Nat :=
  ((List.finRange 12).map fun f =>
    match s.passedOut band f with
    | some (amount, a) => if a = e then amount else 0
    | none => 0).sum

/-! ### The walk (R86, R87) -/

/-- The target of a walkable consumer (R86). -/
def Consumer.target (c : Consumer) (request : Nat) : Nat :=
  let top := match c.cap with
    | some k => min k c.limits.maximum
    | none => c.limits.maximum
  if top < c.limits.minimum then 0
  else
    let t1 := min request top
    let t2 := if 0 < c.confirmed ∧ c.confirmed + c.limits.ramp < t1 then c.confirmed + c.limits.ramp else t1
    let t3 := if c.confirmed = 0 ∧ 0 < t2 then
        (if 0 < c.limits.minimum then c.limits.minimum else min t2 c.limits.ramp) else t2
    if 0 < t3 ∧ t3 < c.limits.minimum then c.limits.minimum else t3

/-- The frame grant from the rate remaining (R87). -/
def frameGrant (target remaining minimum : Nat) : Nat :=
  let g := min target remaining
  if 0 < g ∧ g < minimum then 0 else g

/-- A walked entry with its target and frame grant. -/
structure WalkedEntry where
  entry : Fin 12
  target : Nat
  grant : Nat
  deriving DecidableEq, Repr

/-- The frame grant is a trim (R87). -/
def WalkedEntry.trimmed (w : WalkedEntry) : Bool := decide (w.grant < w.target)

/-- The walk along consumers, and the rate it leaves (R87). -/
def walkLadder (consumers : Table Consumer 12) (request : Fin 12 → Nat) : Nat → List (Fin 12) → List WalkedEntry × Nat
  | remaining, [] => ([], remaining)
  | remaining, e :: rest =>
    let c := consumers.get e
    let t := c.target (request e)
    let g := frameGrant t remaining c.limits.minimum
    let r := walkLadder consumers request (remaining - g) rest
    (⟨e, t, g⟩ :: r.1, r.2)

/-- The walked outcome of an entry. -/
def walkedAt (walked : List WalkedEntry) (e : Fin 12) : Option WalkedEntry := walked.find? fun w => w.entry == e

/-- The entry that follows another in an order, the first following the last. -/
def follower (order : List (Fin 12)) (e : Fin 12) : Fin 12 :=
  match order.findIdx? fun x => x == e with
  | some k => order.getD ((k + 1) % order.length) e
  | none => e

/-- The pointer of a rank after the walk (R89). -/
def State.rotated (s : State) (walked : List WalkedEntry) (r : Fin 8) : Fin 12 :=
  let order := s.rotationOrder r
  let members := order.filterMap (walkedAt walked)
  if order.length ≤ 1 ∨ !(members.any WalkedEntry.trimmed) then s.alloc.pointers.get r
  else match members.find? fun w => decide (0 < w.target) with
    | some w => follower order w.entry
    | none => s.alloc.pointers.get r

/-! ### Flare (R91, R92) -/

/-- The flare demand from the remainder (R91). -/
def flareDemand (img : Image) (band : HolderBand) (remainder : Nat) : Nat :=
  if band = .highhigh then remainder else remainder - img.imax

/-- The flare demand has moved by the threshold, or to or from 0 (R92). -/
def flareMoves (threshold reported demand : Nat) : Bool :=
  demand != reported &&
    (decide (threshold ≤ max demand reported - min demand reported) || ((demand == 0) != (reported == 0)))

/-- The flare demand is set, and FLARE posted when due. -/
def State.setFlare (s : State) (demand : Nat) : State :=
  let s1 := s.mapAlloc fun a => { a with flare := demand }
  if flareMoves s.img.flareThreshold s.alloc.reportedFlare demand then
    (s1.mapAlloc fun a => { a with reportedFlare := demand }).post [.works] .flare 0
      (fit32 0 4294967295 Config.wideWord demand)
  else s1

/-! ### The frame (R74) -/

/-- The band is judged, and HOLDER BAND posted when it changes (R77). -/
def State.judgeBand (s : State) (band : HolderBand) (level : Int) : State :=
  let s1 := s.mapAlloc fun a => { a with band := band }
  if band = s.alloc.band then s1 else s1.post [.works, .plant] .holderBand band.code (noticeInt level)

/-- F4 and F5 follow the band: the one that clears first, then the one that sets (R69). -/
def State.holderFlags (s : State) (band : HolderBand) : State :=
  let high := band == .high || band == .highhigh
  let low := band == .low || band == .lowlow
  let s1 := if high then s else s.askFlag flagHigh false
  let s2 := if low then s1 else s1.askFlag flagLow false
  let s3 := if high then s2.askFlag flagHigh true else s2
  if low then s3.askFlag flagLow true else s3

/-- Everything a frame works out before it changes anything: the figures of R93. -/
def State.frameSummary (s : State) (label number powerFuel : Nat) : FrameSummary :=
  let level := s.slotValue s.img.levelSlot
  let cv := s.slotValue s.img.cvSlot
  let band := nextBand s.img s.alloc.band level
  let term := holderTerm s.img level cv
  let a := distributable s.supply term
  let heat := s.placeFuel band .heat s.heatDutyFuel
  let power := s.placeFuel band .power powerFuel
  let shares := heat.1 ++ power.1
  let request (e : Fin 12) : Nat := s.declInUse (requestDecl e) + shareOf shares e + s.passedIn band e
  let walk := walkLadder s.alloc.consumers request (a - s.heldSum) (s.ladder.filter (s.walkable band))
  { number := number, label := label, supply := s.supply, level := level, holderCV := cv, band := band
    holderTerm := term, distributable := a, held := s.heldSum, recovered := s.recovered
    heatDemand := s.declInUse heatDecl, heatState := (s.decls.get heatDecl).state
    heatFuel := s.heatDutyFuel, heatUnplaced := heat.2, powerFuel := powerFuel, powerUnplaced := power.2
    remainder := walk.2, flare := flareDemand s.img band walk.2
    pointers := Table.ofFn (s.rotated walk.1)
    outcomes := Table.ofFn fun e =>
      let w := walkedAt walk.1 e
      let d := s.disposition band e
      { disposition := d, declValue := s.declInUse (requestDecl e), declState := (s.decls.get (requestDecl e)).state
        share := shareOf shares e, passedOut := (s.passedOut band e).map fun x => (x.1, x.2.val)
        passedIn := s.passedIn band e
        request := if d = .walked then some (request e) else none
        target := w.map WalkedEntry.target
        grant := match d with
          | .walked => w.map WalkedEntry.grant
          | .parked => some 0
          | .ineligible => some 0
          | .shed => some 0
          | _ => none
        trim := (w.map WalkedEntry.trimmed).getD false } }

/-- The frame grants are handed over in ascending entry index (R90). -/
def State.handOver (s : State) (f : FrameSummary) : State :=
  (List.finRange 12).foldl (fun t e => match (f.outcomes.get e).grant with
    | some g => t.handGrant e g
    | none => t) s

/-- The frame number after another (R74). -/
def nextFrameNumber (n : Nat) : Nat := (n + 1) % 4294967296

/-- The frame run after the tick of a label (R74). -/
def State.runFrame (s : State) (label : Nat) : State :=
  let number := nextFrameNumber s.alloc.frameNumber
  let f := s.frameSummary label number s.powerDutyFuel
  let s1 := s.mapTracker fun t => { t with fuel := some ⟨f.powerFuel, number⟩ }
  let s2 := s1.judgeBand f.band f.level
  let s3 := s2.mapAlloc fun a => { a with frameNumber := number, pointers := f.pointers }
  let s4 := (s3.setFlare f.flare).holderFlags f.band
  (s4.handOver f).mapAlloc fun a => { a with summary := some f }

/-- The station is OPERATING, its blocks run, and a completed frame waits to be run. -/
def State.dueFrame (s : State) : Option Nat :=
  if s.blocksRun && s.station.state == .operating then s.alloc.frameDue else none

/-- The completed frame is run, if one is due. -/
def State.takeFrameCompletion (s : State) : State :=
  match s.dueFrame with
  | some label => (s.mapAlloc fun a => { a with frameDue := none }).runFrame label
  | none => s

/-- FRAME_COMPLETION (R74). The frame averages were set as the completing tick's integration ended (R56, R73). -/
def execFrameCompletion (s : State) : Out := .next s.takeFrameCompletion

/-! ### READ FRAME (R94) -/

/-- A figure of 8 bytes; one that its field cannot hold reports 2⁶⁴ − 1 (R93). -/
def be8 (v : Nat) : List Byte := be 8 (min v 18446744073709551615)

/-- Part 0: the station figures (R93). The mark beside Qr is that of a field which may be absent: 01h with a recovered-heat
stream named (assumption 57). -/
def frameStationData (f : FrameSummary) : List Byte :=
  be 4 f.number ++ be 4 f.label ++ be8 f.supply ++ beInt 4 f.level ++ beInt 4 f.holderCV ++ be 1 f.band.code ++
  beInt 8 f.holderTerm ++ be8 f.distributable ++ be8 f.held ++
  (match f.recovered with
    | some q => markByte true ++ be8 q
    | none => markByte false ++ be 8 0) ++
  be 4 f.heatDemand ++ be 1 f.heatState.code ++ be8 f.heatFuel ++ be8 f.heatUnplaced ++ be8 f.powerFuel ++
  be8 f.powerUnplaced ++ be8 f.remainder ++ be8 f.flare ++ f.pointers.entries.flatMap fun e => be 1 e.val

/-- Parts 1 to 12: the outcome of an entry (R93), after the frame number (R94; assumption 57). -/
def frameEntryData (f : FrameSummary) (e : Fin 12) : List Byte :=
  let o := f.outcomes.get e
  be 4 f.number ++ be 1 o.disposition.code ++ be 4 o.declValue ++ be 1 o.declState.code ++ be 4 o.share ++
  (match o.passedOut with
    | some (amount, a) => markByte true ++ be 4 amount ++ be 1 a
    | none => markByte false ++ be 4 0 ++ be 1 0) ++
  be 4 o.passedIn ++ optField 4 o.request ++ optField 4 o.target ++ optField 4 o.grant ++ markByte o.trim

/-- The data of READ FRAME. -/
def frameData (s : State) (part : Nat) : List Byte :=
  match s.alloc.summary with
  | none => markByte false ++ be 4 s.alloc.frameNumber
  | some f =>
    markByte true ++ (if part = 0 then frameStationData f else frameEntryData f (Fin.ofNat 12 (part - 1)))

/-- READ FRAME past the state check. -/
def readFrameRule (part : Nat) (s : State) : State × Reply :=
  if 12 < part then refuse s .range else answer s (frameData s part)

/-- READ FRAME (R94). -/
def execReadFrame (p : Party) (part : Nat) (s : State) : Out := .next (s.request p .readFrame (readFrameRule part))

end Sys2Proof.Machine
end

