-- ==== Sys2Proof/Machine/Checkpoint.lean ====
section
/-! DEFINITION. Gathering a checkpoint (R58, R71, R95, R115, R131, R151, R168): what each owner gives, when a periodic
checkpoint is due, and how a gathered one joins the array queue. -/

namespace Sys2Proof.Machine

/-- What the integrator gives of each stream (R58). -/
def State.streamsKept (s : State) : Table StreamKept 8 :=
  s.fiscal.streams.mapFin fun i st =>
    ⟨st.total, st.residual, st.errorSeconds, st.reverseSeconds, (s.pulses.windows.get i).doubtful⟩

/-- What a consumer record gives: everything but its pending grant, its timer and its retry count (R115). -/
def Consumer.kept (c : Consumer) : Consumer := { c with pending := none, retry := 0, timer := 0 }

/-- What the tracker gives: everything but the behind judgement and the power duty fuel (R131). -/
def Tracker.kept (t : Tracker) : Tracker := { t with behind := false, fuel := none }

/-- The record sectors that meet a test. -/
def Store.sectorsWhere (st : Store) (f : RecSector → Bool) : List Nat :=
  ((List.range 54).map fun k => 10 + k).filter fun n => f (st.sector n)

/-- What the store gives (R168). -/
def Store.kept (st : Store) : StoreKept where
  writeSector := st.writeSector
  nextUnit := st.nextUnit
  sequence := st.sequence
  retired := st.sectorsWhere fun r => r.state == .retired
  retiring := st.sectorsWhere fun r => r.retiring
  retiredCkpts := ((List.range 8).map fun k => 2 + k).filter fun n => (st.ckpt n).state == .retired
  abandoned := st.abandoned

/-- The checkpoint that the owners' state makes (R168). -/
def State.gather (s : State) (emergency : Bool) : Checkpoint where
  sequence := s.store.ckptSequence + 1
  emergency := emergency
  time := s.clock.time
  label := s.clock.lastLabel
  streams := s.streamsKept
  lastGood := s.sensor.slots.map Slot.lastGood
  consumers := s.alloc.consumers.map Consumer.kept
  frameNumber := s.alloc.frameNumber
  pointers := s.alloc.pointers
  partyFlags := Table.ofFn fun i => s.alloc.flags.get (Fin.castLE (by decide) i)
  tracker := s.tracker.kept
  billing := s.billing
  store := s.store.kept

/-- A checkpoint is gathered and its program joins the array queue. -/
def State.gatherNow (s : State) (emergency : Bool) : State :=
  let c := s.gather emergency
  s.mapStore fun st => { st with gatherDue := none }.enqueue (.checkpoint c)

/-- A checkpoint is begun: at once, or after the hand-offs of the tick in integration (R58, R151, R168). -/
def State.beginCheckpoint (s : State) (emergency : Bool) : State :=
  if s.fiscal.tick.isSome then s.mapStore fun st => { st with gatherDue := some emergency } else s.gatherNow emergency

/-- A checkpoint that waited for a tick is gathered once the tick's hand-offs are made. -/
def State.gatherWaiting (s : State) : State :=
  match s.store.gatherDue with
  | some emergency => s.gatherNow emergency
  | none => s

/-- A checkpoint is waiting to be gathered, waiting in the array queue, or being programmed. -/
def Store.ckptOutstanding (st : Store) : Bool :=
  st.gatherDue.isSome ||
  (match st.current with | some (.checkpoint ..) => true | _ => false) ||
  st.queue.any fun op => match op with | .checkpoint _ => true | _ => false

/-- How many integrated ticks make a periodic checkpoint due (R168). -/
def checkpointTicks : Nat := 900

/-- A periodic checkpoint is due. -/
def State.checkpointDue (s : State) : Bool :=
  s.blocksRun && !s.store.pfw && decide (checkpointTicks ≤ s.clock.ckptTicks)

/-- The periodic checkpoint that is due: begun, or passed over with the count running on from its due time while the
previous one is still in the queue (R168). -/
def State.takeCheckpoint (s : State) : State :=
  if s.checkpointDue then
    if s.store.ckptOutstanding then
      { s with clock := { s.clock with ckptTicks := s.clock.ckptTicks - checkpointTicks } }
    else { s with clock := { s.clock with ckptTicks := 0 } }.beginCheckpoint false
  else s

/-- PERIODIC_CHECKPOINT (R168). -/
def execPeriodicCheckpoint (s : State) : Out := .next s.takeCheckpoint

end Sys2Proof.Machine
end

