-- ==== Sys2Proof/Machine/Station.lean ====
section
/-! DEFINITION. The exchange station (chapter 1): the edit image, approval, the start and the end of a commit, the entry
actions of R17 and R18, the consent windows, and the beginning of a store clear (R164). -/

namespace Sys2Proof.Machine

/-- The state with the station changed. -/
def State.mapStation (s : State) (f : Station → Station) : State := { s with station := f s.station }

/-- The state with the clock changed. -/
def State.mapClock (s : State) (f : Clock → Clock) : State := { s with clock := f s.clock }

/-- No approval recorded. -/
def noApprovals : Table Bool 3 := Table.replicate 3 false

/-- A store clear is in progress (R20, R164). -/
def State.clearInProgress (s : State) : Bool := s.store.clearing.isSome

/-- A commit or a store clear is in progress (R11, R15, R20). -/
def State.busy (s : State) : Bool := s.station.commit.isSome || s.clearInProgress

/-- The edit image; the factory image where there is none. -/
def State.editImage (s : State) : Image := s.station.edit.getD Image.factory

/-! ### WRITE CONFIG, READ CONFIG, READ STATION -/

/-- WRITE CONFIG past the state check of BLANK and STARTING (R11). -/
def writeConfigRule (item index : Nat) (value : Int) (s : State) : State × Reply :=
  if s.station.state = .operating ∨ s.busy then refuse s .state
  else match findItem item with
    | none => refuse s .range
    | some it =>
      if s.station.state = .reconfiguring ∧ !it.reconf then refuse s .state
      else if it.count ≤ index ∨ !it.values.allows value then refuse s .range
      else
        (s.mapStation fun x => { x with edit := some (s.editImage.put item index value), approvals := noApprovals },
          .done .ok [])

/-- WRITE CONFIG (R11). -/
def execWriteConfig (p : Party) (item index : Nat) (value : Int) (s : State) : Out :=
  .next (s.request p .writeConfig (writeConfigRule item index value))

/-- The image that READ CONFIG selects: `none` is an unknown selector, `some none` an image that does not exist. -/
def State.selectImage (s : State) (image : Nat) : Option (Option Image) :=
  if image = 0 then some (s.station.inForce.map Programmed.image)
  else if image = 1 then some s.station.edit
  else none

/-- READ CONFIG past the state check of STARTING (R12). -/
def readConfigRule (image item index : Nat) (s : State) : State × Reply :=
  match s.selectImage image with
  | none => refuse s .range
  | some none => refuse s .state
  | some (some img) =>
    match findItem item with
    | none => refuse s .range
    | some it => if it.count ≤ index then refuse s .range else answer s (beInt 4 (img.get item index))

/-- READ CONFIG (R12). -/
def execReadConfig (p : Party) (image item index : Nat) (s : State) : Out :=
  .next (s.request p .readConfig (readConfigRule image item index))

/-- Station state codes (R189). -/
def StationState.code : StationState → Nat
  | .blank => 0 | .operating => 1 | .reconfiguring => 2 | .starting => 3

/-- Three marks in party order. -/
def marksData (t : Table Bool 3) : List Byte := t.entries.flatMap markByte

/-- A consent window: its marks and the seconds left, 0 when none is open (R12). -/
def windowData (w : ConsentWindow) : List Byte := marksData w.marks ++ be 4 (w.left.getD 0)

/-- The data of READ STATION (R12). -/
def stationData (s : State) : List Byte :=
  let x := s.station
  be 1 x.state.code ++ markByte x.commit.isSome ++ markByte s.clearInProgress ++
  be 4 ((x.inForce.map fun p => p.image.checkWord).getD 0) ++ be 4 ((x.inForce.map Programmed.generation).getD 0) ++
  be 4 ((x.edit.map Image.checkWord).getD 0) ++ marksData x.approvals ++ windowData x.recommission ++
  windowData x.clearStore

/-- READ STATION (R12). -/
def execReadStation (p : Party) (s : State) : Out := .next (s.request p .readStation fun s => answer s (stationData s))

/-! ### Commit: begin and failure (R16, R167) -/

/-- The configuration sector that a commit targets (R16, R171). -/
def State.commitTarget (s : State) : Nat :=
  if s.station.state = .blank then s.store.blankTarget
  else match s.store.imageSector with
    | some 0 => 1
    | _ => 0

/-- The highest generation of an image (R167). -/
def lastGeneration : Nat := 4294967294

/-- The generation that follows a generation: one more; after the highest a free value from 1 to the highest
(assumption 66). -/
def generationAfter (n : Nat) : Nat :=
  if n < lastGeneration then n + 1 else 1 + Config.generationAfterLast n % lastGeneration

/-- The generation that a commit programs (R10). -/
def State.nextGeneration (s : State) : Nat :=
  match s.station.inForce with
  | some p => generationAfter p.generation
  | none => 1

/-- The configuration program of the commit joins the array queue (R167, step 2). -/
def State.queueConfig (s : State) (approver : Party) (target : Nat) : State :=
  (s.mapStation fun x => { x with commit := some ⟨approver, target, .programming⟩ }).mapStore fun st =>
    st.enqueue (.config target s.nextGeneration s.editImage)

/-- The third approval begins the commit (R16, step 1): a target that is not EMPTY is erased first (R167). -/
def State.beginCommit (s : State) (p : Party) : State :=
  let target := s.commitTarget
  if sectorBlank s.store.cells target then s.queueConfig p target
  else (s.mapStation fun x => { x with commit := some ⟨p, target, .erasingTarget⟩ }).mapStore fun st =>
    st.listErase target

/-- The configuration write failed: the commit ends at once, and the third APPROVE completes STATE (R16). -/
def State.failCommit (s : State) : State :=
  match s.station.commit with
  | none => s
  | some c => (s.mapStation fun x => { x with commit := none, approvals := noApprovals }).respond c.approver .state []

/-- APPROVE past the state check of STARTING (R15). The word and the image are judged before a mark already set
(assumption 52). The number of the failed condition takes 1 byte (assumption 8). -/
def approveRule (p : Party) (word : Nat) (s : State) : State × Reply :=
  if s.station.state = .operating ∨ s.busy then refuse s .state
  else if word ≠ s.editImage.checkWord then refuse s .mismatch
  else match s.editImage.inconsistency with
    | some (number, broken) =>
      let at_ := s.editImage.reportedItem broken
      (s, .done .range (be 1 number ++ be 1 at_.1 ++ be 1 at_.2))
    | none =>
      if s.station.approvals.get (partyIndex p) then answer s []
      else
        let s1 := s.mapStation fun x => { x with approvals := x.approvals.set (partyIndex p) true }
        if s1.station.approvals.entries.all id then (s1.beginCommit p, .waiting) else (s1, .done .ok [])

/-- APPROVE (R15). -/
def execApprove (p : Party) (word : Nat) (s : State) : Out := .next (s.request p .approve (approveRule p word))

/-! ### Entry to OPERATING from BLANK (R17) -/

/-- A consumer at the start of the station. -/
def firstConsumer (img : Image) (e : Fin 12) : Consumer :=
  if (img.operator e).isSome then { Consumer.absent with state := .ready, limits := img.limits e } else Consumer.absent

/-- The lowest present entry of a rank, 0 when it has none (R95). -/
def firstPointer (img : Image) (r : Fin 8) : Fin 12 :=
  ((List.finRange 12).find? fun e => (img.operator e).isSome && img.rank e == r.val).getD 0

/-- The allocator at the start of the station. -/
def firstAllocator (img : Image) : Allocator :=
  { Allocator.atStart with pointers := Table.ofFn (firstPointer img), consumers := Table.ofFn (firstConsumer img) }

/-- The tracker at the start of the station (R131). -/
def firstTracker (img : Image) : Tracker := { Tracker.atStart with running := intervalOf img 0 }

/-- Which of the PRICED contracts a contract is, counted from 1 in ascending index (R135). -/
def pricedOrdinal (img : Image) (c : Fin 4) : Nat :=
  ((List.finRange 4).filter fun d => !img.isRecord d && decide (d ≤ c)).length

/-- The identity that follows `counter` after `k` issues (R135). -/
def identityAfter (counter : Nat) : Nat → Nat
  | 0 => counter
  | k + 1 => nextIdentity (identityAfter counter k)

/-- The commissioning tariff of a contract as it goes into force (R17); none for the RECORD contract. -/
def commissioningTariff (img : Image) (counter : Nat) (c : Fin 4) : Option Tariff :=
  if img.isRecord c then none
  else some (Tariff.fix (identityAfter counter (pricedOrdinal img c)) (img.bands c) (img.percentage c))

/-- The Billing Unit at the start of the station, with the identity counter and period numbers it starts from (R152;
R184 when no checkpoint is good). -/
def State.firstBilling (s : State) (counter : Nat) (period : Fin 4 → Nat) : Billing where
  contracts := Table.ofFn fun c =>
    let tariff := commissioningTariff s.img counter c
    ⟨tariff, none, period c, firstBoundary s.img c, s.openAccount (period c) 0 (firstBoundary s.img c) tariff, none⟩
  counter := identityAfter counter ((List.finRange 4).filter fun d => !s.img.isRecord d).length

/-- Every HELD checkpoint sector joins the erase list (R171). -/
def Store.listHeld (st : Store) : Store :=
  ((List.range 8).map fun k => 2 + k).foldl (fun t n => if (t.ckpt n).state = .held then t.listErase n else t) st

/-- The clock at the epoch (R17, R175). -/
def Clock.epoch (k : Clock) (img : Image) : Clock :=
  { k with
    time := 0, domain := 0, valid := true, suspect := false, phase := 0, adjustments := Table.replicate 3 none
    lastAdjustment := none, lastRestart := none, frameTimer := some (0, img.frameLength), ckptTicks := 0, lastLabel := 0 }

/-- The station once a commit's image is in force: OPERATING, no edit image, no approval, no window. -/
def Station.committed (x : Station) (p : Programmed) : Station :=
  { x with
    state := .operating, inForce := some p, edit := none, approvals := noApprovals, commit := none
    recommission := ConsentWindow.closed, clearStore := ConsentWindow.closed }

/-- The image that a commit programs. -/
def State.committing (s : State) : Programmed := ⟨s.nextGeneration, s.editImage⟩

/-- Entry to OPERATING from BLANK (R17). -/
def State.enterFromBlank (s : State) : State :=
  let img := s.editImage
  let s1 := { s with
    station := s.station.committed s.committing
    clock := s.clock.epoch img
    fiscal := Fiscal.atStart
    pulses := Pulses.atStart
    sensor := Sensor.atStart
    decls := Table.replicate 13 Declaration.atStart
    alloc := firstAllocator img
    tracker := firstTracker img
    store := s.store.listHeld
    ports := Table.ofFn fun i =>
      { s.ports.get i with filter := BitVec.ofInt 32 (img.get 0x4C i.val) } }
  { s1 with billing := s1.firstBilling 0 fun _ => 1 }

/-! ### Entry to OPERATING from RECONFIGURING (R18) -/

/-- The check window of a stream restarts at the commit (R18, R39). -/
def windowRestarts (old new : Image) (i : Fin 8) : Bool :=
  old.streamKind i != new.streamKind i || old.mainInput i != new.mainInput i || old.checkInput i != new.checkInput i

/-- A consumer record at the commit (R18, R115). -/
def committedConsumer (old new : Image) (e : Fin 12) (c : Consumer) : Consumer :=
  match old.operator e, new.operator e with
  | _, none => Consumer.absent
  | none, some _ => firstConsumer new e
  | some p, some q => if p = q then c.limitTo (new.limits e) else (c.limitTo (new.limits e)).settle

/-- A comparison window at the commit (R18, R39). -/
def committedWindow (old new : Image) (i : Fin 8) (w : CheckWindow) : CheckWindow :=
  if windowRestarts old new i then CheckWindow.atStart else w

/-- A slot at the commit (R18): one whose kind changed becomes NEVER. -/
def committedSlot (old new : Image) (i : Fin 24) (sl : Slot) : Slot :=
  if old.slotKind i = new.slotKind i then sl else Slot.atStart

/-- Entry to OPERATING from RECONFIGURING (R18). -/
def State.enterFromReconfiguring (s : State) : State :=
  let old := s.img
  let new := s.editImage
  { s with
    station := s.station.committed s.committing
    clock := { s.clock with frameTimer := some (0, new.frameLength) }
    pulses := { s.pulses with windows := s.pulses.windows.mapFin (committedWindow old new) }
    sensor := { s.sensor with slots := s.sensor.slots.mapFin (committedSlot old new) }
    alloc := { s.alloc with consumers := s.alloc.consumers.mapFin (committedConsumer old new) } }

/-- The commit ends: the station enters OPERATING with its entry actions, and the third APPROVE completes OK (R16,
step 4). A comparison window that has reached its 60th tick is judged first, under the old image (R38, R41). -/
def State.enterOperating (s : State) : State :=
  match s.station.commit with
  | none => s
  | some c =>
    (if s.station.state = .blank then s.enterFromBlank else s.endWindows.enterFromReconfiguring).respond c.approver .ok []

/-- The other configuration sector's erase has ended: the entry follows, after the tick in integration (R16, R41). -/
def State.endCommit (s : State) : State :=
  if s.fiscal.tick.isSome then
    s.mapStation fun x => { x with commit := x.commit.map fun c => { c with phase := .entering } }
  else s.enterOperating

/-- A commit that waited for a tick's integration ends. -/
def State.enterWaiting (s : State) : State :=
  match s.station.commit with
  | some c => if c.phase = .entering then s.enterOperating else s
  | none => s

/-! ### Consent windows (R19, R20) -/

/-- How long a consent window stands, in seconds. -/
def windowSeconds : Nat := 600

/-- A window with a party's mark set; the first mark opens it. -/
def ConsentWindow.mark (w : ConsentWindow) (p : Party) : ConsentWindow :=
  ⟨w.marks.set (partyIndex p) true, some (w.left.getD windowSeconds)⟩

/-- All three parties have consented. -/
def ConsentWindow.complete (w : ConsentWindow) : Bool := w.marks.entries.all id

/-- A window at a second boundary. -/
def ConsentWindow.atBoundary (w : ConsentWindow) : ConsentWindow := { w with left := w.left.map fun n => n - 1 }

/-- The window has run out. -/
def ConsentWindow.expired (w : ConsentWindow) : Bool := w.left == some 0

/-- Every stream's frame sum returns to 0. -/
def Fiscal.dropSums (f : Fiscal) : Fiscal := { f with streams := f.streams.map fun st => { st with frameSum := 0 } }

/-- Every open account takes the RECOMMISSION flag (R150). -/
def Billing.markRecommission (b : Billing) : Billing :=
  { b with contracts := b.contracts.map fun k => { k with opened := { k.opened with recommission := true } } }

/-- The station enters RECONFIGURING (R9, R19, R73, R150). -/
def State.enterReconfiguring (s : State) : State :=
  { s with
    station := { s.station with
      state := .reconfiguring, edit := some s.img, approvals := noApprovals, recommission := ConsentWindow.closed }
    clock := { s.clock with frameTimer := none }
    alloc := { s.alloc with frameDue := none }
    fiscal := s.fiscal.dropSums
    billing := s.billing.markRecommission }

/-- RECOMMISSION past the state check of STARTING and BLANK (R19). -/
def recommissionRule (p : Party) (s : State) : State × Reply :=
  if s.station.state ≠ .operating then refuse s .state
  else
    let s1 := s.mapStation fun x => { x with recommission := x.recommission.mark p }
    (if s1.station.recommission.complete then s1.enterReconfiguring else s1, .done .ok [])

/-- RECOMMISSION (R19). -/
def execRecommission (p : Party) (s : State) : Out := .next (s.request p .recommission (recommissionRule p))

/-- The recommission window runs out, if it is due to (R19). -/
def State.expireRecommission (s : State) : State :=
  if s.blocksRun && s.station.recommission.expired then
    s.mapStation fun x => { x with recommission := ConsentWindow.closed }
  else s

/-- RECOMMISSION_WINDOW_EXPIRY (R19). -/
def execRecommissionWindowExpiry (s : State) : Out := .next s.expireRecommission

/-- The store-clear window runs out, if it is due to (R20). -/
def State.expireClearStore (s : State) : State :=
  if s.blocksRun && s.station.clearStore.expired then
    s.mapStation fun x => { x with clearStore := ConsentWindow.closed }
  else s

/-- CLEAR_STORE_WINDOW_EXPIRY (R20). -/
def execClearStoreWindowExpiry (s : State) : Out := .next s.expireClearStore

/-! ### The store clear begins (R164) -/

/-- The 54 record sectors in ring order from sector 10. -/
def ringFromStart : List Nat := (List.range 54).map fun k => 10 + k

/-- The write position at unit 0 of a sector, which becomes FILLING when it is ERASED. -/
def Store.startAt (st : Store) (n : Nat) : Store :=
  let st1 := { st with writeSector := n, nextUnit := 0 }
  if (st1.sector n).state = .erased then st1.setState n .filling else st1

/-- Mark programs and reads that wait are overtaken (R164). -/
def ArrayOp.overtaken : ArrayOp → ArrayOp
  | .mark p sector unit bySeller contract period _ => .mark p sector unit bySeller contract period true
  | .read p e part _ => .read p e part true
  | op => op

/-- A record program being served stops after its current unit: whole units are written, and the record waits at the
head of the queue (R164). -/
def Store.stopRecord (st : Store) (unitsWritten : Nat) : Store :=
  match st.current with
  | some (.record r sector unit) =>
    { st with
      cells := programBytes st.cells (unitBase sector unit) (r.bytes.take (32 * unitsWritten))
      current := none
      queue := .record r :: st.queue }
  | _ => st

/-- The sectors that a store clear lists. -/
def Store.written (st : Store) : List Nat :=
  ringFromStart.filter fun n =>
    (st.sector n).state == .filling || (st.sector n).state == .full || (st.sector n).state == .releasable

/-- The store clear begins (R164). One that finds no sector to list is over at once: no mark of a clear in progress stands
(assumption 67). -/
def Store.beginClear (st : Store) (unitsWritten : Nat) : Store :=
  let listed := st.written
  let st1 := st.stopRecord unitsWritten
  let st2 := listed.foldl Store.listErase { st1 with index := [], queue := st1.queue.map ArrayOp.overtaken }
  let st3 := match ringFromStart.find? fun n => (st2.sector n).state != .retired with
    | some n => st2.startAt n
    | none => st2
  { st3 with clearing := if listed.isEmpty then none else some listed }

/-- How many units of the record being served are written when a clear stops it. -/
def State.unitsAtClear (s : State) : Nat :=
  match s.store.current with
  | some (.record r _ _) => 1 + Config.unitsBeforeClear s.free % r.units
  | _ => 0

/-- CLEAR STORE past the state check of STARTING and BLANK (R20). -/
def clearStoreRule (p : Party) (s : State) : State × Reply :=
  if s.station.state ≠ .reconfiguring ∨ s.busy then refuse s .state
  else
    let s1 := s.mapStation fun x => { x with clearStore := x.clearStore.mark p }
    (if s1.station.clearStore.complete then
        { s1 with
          station := { s1.station with clearStore := ConsentWindow.closed }
          store := s1.store.beginClear s1.unitsAtClear
          free := s1.free + 1 }
      else s1, .done .ok [])

/-- CLEAR STORE (R20). -/
def execClearStore (p : Party) (s : State) : Out := .next (s.request p .clearStore (clearStoreRule p))

end Sys2Proof.Machine
end

