-- ==== Sys2Proof/Machine/Clock.lean ====
section
/-! DEFINITION. Station time (sections 10.1 and 10.2): the raise of a second, the current interval, READ TIME, ADJUST
TIME, and the failure of the backup supply. -/

namespace Sys2Proof.Machine

/-- The last value of station time (section 10.1). -/
def lastTime : Nat := 4294967295

/-- A station time raised by 1; past the last value of its range it is a free value. -/
def State.raised (s : State) (t : Nat) : Nat :=
  if t < lastTime then t + 1 else Config.timeAfterLast s.free % 4294967296

/-- Station time in the backup domain raised by a tick timer boundary (R175, R177). -/
def State.raiseDomain (s : State) : State :=
  { s with
    clock := { s.clock with domain := s.raised s.clock.domain }
    free := if s.clock.domain < lastTime then s.free else s.free + 1 }

/-- The current interval (R176). -/
def State.currentInterval (s : State) : Nat := intervalOf s.img s.clock.time

/-- The start of the current interval, in station time; before the epoch it is negative (R180). -/
def State.intervalStart (s : State) : Int := (s.currentInterval * s.img.intervalLength : Nat) - (s.img.dayOffset : Int)

/-- The end of the current interval, in station time. -/
def State.intervalEnd (s : State) : Int := s.intervalStart + s.img.intervalLength

/-- No adjustment is pending. -/
def noAdjustments : Table (Option PendingStep) 3 := Table.replicate 3 none

/-! ### READ TIME (R179, R187) -/

/-- A pending step with the time it was posted, or a mark that none is pending. -/
def pendingData : Option PendingStep → List Byte
  | some x => markByte true ++ beInt 1 x.step ++ be 4 x.postedAt
  | none => markByte false ++ be 1 0 ++ be 4 0

/-- The last adjustment, or a mark that it is absent. -/
def adjustmentData : Option Adjustment → List Byte
  | some x => markByte true ++ beInt 1 x.requested ++ beInt 1 x.applied ++ be 4 x.time ++ be 1 (partyCode x.first) ++
      be 1 (partyCode x.second)
  | none => markByte false ++ be 1 0 ++ be 1 0 ++ be 4 0 ++ be 1 0 ++ be 1 0

/-- Backup result codes (R189). -/
def BackupResult.code : BackupResult → Nat
  | .valid => 0 | .lost => 1 | .behind => 2

/-- Restart cause codes (R189). -/
def RestartCause.code : RestartCause → Nat
  | .powerUp => 0 | .reset => 1

/-- The sequence number of a restart's checkpoint; a free value without one. -/
def sequenceData : Option Nat → List Byte
  | some n => be 4 n
  | none => be 4 Config.noCheckpointSequence.toNat

/-- The last restart summary, or a mark that it is absent. The mark byte reads 01h for warned (assumption 72). -/
def restartData : Option RestartSummary → List Byte
  | some x => markByte true ++ be 1 x.cause.code ++ markByte x.warned ++ markByte x.noCheckpoint ++
      be 1 ((x.backup.map BackupResult.code).getD 0) ++ sequenceData x.sequence ++ be 4 x.label ++ be 4 x.resume ++
      be 4 x.outage
  | none => markByte false ++ be 1 0 ++ markByte false ++ markByte false ++ be 1 0 ++ be 4 0 ++ be 4 0 ++ be 4 0 ++ be 4 0

/-- The data of READ TIME. -/
def timeData (s : State) : List Byte :=
  let k := s.clock
  be 4 k.time ++ be 4 ((k.time + s.img.dayOffset) % 86400) ++ be 4 s.img.dayOffset ++
  be 4 s.currentInterval ++ beInt 4 (s.intervalEnd - k.time) ++ markByte k.suspect ++ be 4 k.suspectAt ++
  k.adjustments.entries.flatMap pendingData ++ adjustmentData k.lastAdjustment ++ restartData k.lastRestart

/-- READ TIME (R179). -/
def execReadTime (p : Party) (s : State) : Out := .next (s.request p .readTime fun s => answer s (timeData s))

/-! ### ADJUST TIME (R180) -/

/-- The party's own pending step. -/
def State.setAdjustment (s : State) (p : Party) (x : Option PendingStep) : State :=
  s.mapClock fun k => { k with adjustments := k.adjustments.set (partyIndex p) x }

/-- Two steps have the same sign. -/
def sameSign (a b : Int) : Bool := decide ((0 < a ∧ 0 < b) ∨ (a < 0 ∧ b < 0))

/-- Another party whose pending step has the sign of a step, with that step. -/
def State.partner (s : State) (p : Party) (step : Int) : Option (Party × Int) :=
  allParties.findSome? fun q =>
    if q = p then none
    else match s.clock.adjustments.get (partyIndex q) with
      | some x => if sameSign x.step step then some (q, x.step) else none
      | none => none

/-- The smaller in magnitude of two steps of one sign. -/
def smallerStep (a b : Int) : Int := if 0 < a then min a b else max a b

/-- A forward move that would pass the last station time: a free value from the station time to the last one
(assumption 65). -/
def State.moveNearLast (s : State) (step : Int) : Nat :=
  s.clock.time + Config.moveToLast s.clock.time step % (lastTime - s.clock.time + 1)

/-- Station time after a move clamped to the current interval (R180). -/
def State.clampedMove (s : State) (step : Int) : Int :=
  let t := (s.clock.time : Int) + step
  if 0 < step then
    if (lastTime : Int) < min t (s.intervalEnd - 1) then s.moveNearLast step else min t (s.intervalEnd - 1)
  else max t (max s.intervalStart 0)

/-- The adjustment that two parties' steps form is applied (R180). The next label is the new station time plus 1 (R182), also
where the backup domain had counted on past the station time shown (assumption 64). -/
def State.applyAdjustment (s : State) (p q : Party) (requested : Int) : State :=
  let new := s.clampedMove requested
  let applied := new - s.clock.time
  let first := if partyCode p < partyCode q then p else q
  let second := if partyCode p < partyCode q then q else p
  (s.mapClock fun k => { k with
    time := new.toNat, domain := new.toNat, suspect := false, adjustments := noAdjustments
    lastAdjustment := some ⟨requested, applied, new.toNat, first, second⟩ }).post allParties .timeAdjusted 0
      (noticeInt applied) (if applied = requested then 0 else 1)

/-- ADJUST TIME past the state check (R180). -/
def adjustRule (p : Party) (step : Int) (s : State) : State × Reply :=
  if step < -60 ∨ 60 < step then refuse s .range
  else if step = 0 then (s.setAdjustment p none, .done .ok [])
  else match s.partner p step with
    | none => (s.setAdjustment p (some ⟨step, s.clock.time⟩), .done .ok (markByte true))
    | some (q, other) =>
      let requested := smallerStep step other
      let applied := s.clampedMove requested - s.clock.time
      let s1 := s.applyAdjustment p q requested
      (s1, .done (okOrClamped (applied != requested)) (beInt 1 applied ++ be 4 s1.clock.time))

/-- ADJUST TIME (R180). -/
def execAdjustTime (p : Party) (step : Int) (s : State) : Out := .next (s.request p .adjustTime (adjustRule p step))

/-! ### The backup supply (R177) -/

/-- BACKUP_SUPPLY_FAIL (R177): while the main supply is absent, backup validity is lost. -/
def execBackupSupplyFail (s : State) : Out :=
  .next (if s.board.mainOn then s else s.mapClock fun k => { k with valid := false })

end Sys2Proof.Machine
end

