-- ==== Sys2Proof/Machine/RecordStore.lean ====
section
/-! DEFINITION. The array at work (chapter 9): serving the queue and the erase list, the ends of programs, reads and
erases, the power-fail warning, and READ RECORD, RELEASE RECORD and READ STORE. -/

namespace Sys2Proof.Machine

/-! ### ARRAY_SERVE (R154, R155) -/

/-- The first operation that meets a test, and the queue without it. -/
def takeFirst (test : ArrayOp → Bool) : List ArrayOp → Option (ArrayOp × List ArrayOp)
  | [] => none
  | op :: rest => if test op then some (op, rest) else (takeFirst test rest).map fun x => (x.1, op :: x.2)

/-- Which operations the store begins: all of them in OPERATING and RECONFIGURING, configuration programs in BLANK,
none in STARTING (R153, R183); after the power-fail warning only the emergency checkpoint (R170). -/
def State.begins (s : State) : ArrayOp → Bool
  | .config .. => (s.settled || s.station.state == .blank) && !s.store.pfw
  | .checkpoint _ => s.settled
  | _ => s.settled && !s.store.pfw

/-- An operation is served: it leaves the queue and becomes what the array is doing. -/
def State.serve (s : State) : ArrayOp → State
  | .record r => match s.store.place r.units with
    | some (sector, unit) => s.mapStore fun st => { st.enter sector unit with current := some (.record r sector unit) }
    | none => s
  | .mark p sector unit bySeller contract period gone => s.mapStore fun st =>
    { st with current := some (.mark p sector unit bySeller contract period
        (gone || (st.sector sector).state == .erasing)) }
  | .read p e part gone => s.mapStore fun st =>
    { st with current := some (.read p e part (gone || st.suspended == some e.sector)) }
  | .checkpoint c => match s.store.ckptTarget with
    | .write n => s.mapStore fun st => { st with current := some (.checkpoint c n) }
    | .wait => s
    | .none => s.postDefect 255 3
  | .config sector generation image => s.mapStore fun st =>
    { st with current := some (.config sector generation image) }

/-- A suspended erase resumes, or the sector at the head of the erase list is erased; in BLANK only configuration
sectors are (R153, R154, R173). -/
def State.beginErase (s : State) : State :=
  if s.store.pfw then s
  else match s.store.suspended with
    | some n => s.mapStore fun st => { st with current := some (.erase n), suspended := none }
    | none => match s.store.eraseList.find? fun n => s.settled || decide (n < 2) with
      | some n => s.mapStore fun st => { st with current := some (.erase n), eraseMs := 0 }
      | none => s

/-- The array falls free (R154). -/
def State.arrayServe (s : State) : State :=
  if !s.board.mainOn || s.station.state == .starting || s.store.current.isSome then s
  else match takeFirst (fun op => s.begins op && s.store.canServe op) s.store.queue with
    | some (op, rest) => (s.mapStore fun st => { st with queue := rest }).serve op
    | none => s.beginErase

/-- ARRAY_SERVE (R154). -/
def execArrayServe (s : State) : Out := .next s.arrayServe

/-! ### Record programs (R158, R160) -/

/-- What the index holds of a record that has verified. -/
def PeriodRecord.indexed (r : PeriodRecord) (sector unit : Nat) : IndexEntry :=
  ⟨sector, unit, r.units, some ⟨r.contract.val, r.account.period, r.seller, r.buyer, r.sequence, false, false⟩⟩

/-- The last unit of a record verifies (R148, R158). -/
def State.recordDone (s : State) (r : PeriodRecord) (sector unit : Nat) : State :=
  let s1 := s.mapStore fun st => { st with
    cells := programBytes st.cells (unitBase sector unit) r.bytes
    nextUnit := unit + r.units
    index := st.index ++ [r.indexed sector unit]
    current := none }
  (s1.mapContract r.contract fun k => { k with closing := none }).post (s.contractParties r.contract) .recordWritten
    r.contract.val (BitVec.ofNat 32 r.account.period) sector unit

/-- RECORD_PROGRAM_DONE (R158). -/
def execRecordProgramDone (s : State) : Out :=
  .next (match s.store.current with
    | some (.record r sector unit) => s.recordDone r sector unit
    | _ => s)

/-- 32 bytes of a unit: those given, FFh after them. -/
def unitOf (bytes : List Byte) : List Byte := (bytes ++ List.replicate 32 erasedByte).take 32

/-- A unit program fails to verify: what the unit reads is not what the program should have left (R153). -/
def programFails (cells : List Host.Cell) (a : Nat) (written left : List Byte) : Bool :=
  readBytes (programBytes cells a (unitOf left)) a 32 != readBytes (programBytes cells a (unitOf written)) a 32

/-- The span that the start-up walk reads from a unit: `none` when every byte is FFh (R172). -/
def unitSpan (cells : List Host.Cell) (sector unit : Nat) : Option Nat :=
  let a := unitBase sector unit
  if (readBytes cells a 32).all fun b => b == erasedByte then none
  else
    let length := (readCell cells (a + 1)).toNat
    some (if 5 ≤ length ∧ length ≤ 35 ∧ unit + length ≤ 128 then length else 1)

/-- The array after a failed attempt and its void program: units before the failing one whole, the failing one as it
reads, the tag byte as it reads after the void (R160). -/
def failedCells (cells : List Host.Cell) (a : Nat) (written : List Byte) (unit : Nat) (left : List Byte) (tag : Byte) :
    List Host.Cell :=
  let m := programBytes (programBytes cells a (written.take (32 * unit))) (a + 32 * unit) (unitOf left)
  writeCell m a (readCell m a &&& tag)

/-- The void span joins the index, the next unit moves past it, and the failure count rises (R160). -/
def Store.voidAttempt (st : Store) (sector unit : Nat) (cells : List Host.Cell) : Store :=
  let span := unitSpan cells sector unit
  { st.mapSector sector fun r => { r with fails := min 3 (r.fails + 1) } with
    cells := cells
    nextUnit := unit + span.getD 0
    index := match span with
      | some n => st.index ++ [⟨sector, unit, n, none⟩]
      | none => st.index
    current := none }

/-- A sector is left and takes the retiring mark (R160). -/
def Store.retire (st : Store) (sector : Nat) : Store :=
  (st.mapSector sector fun r => { r with state := st.leftState sector, retiring := true }).testErases

/-- The record is programmed again: at once where it can be placed, else as soon as a sector is ready (R160). It waits at
the head of the array queue (assumption 55). -/
def Store.remake (st : Store) (r : PeriodRecord) : Store :=
  match st.place r.units with
  | some (sector, unit) => { st.enter sector unit with current := some (.record r sector unit) }
  | none => { st with queue := .record r :: st.queue }

/-- A unit of a record program fails to verify (R160, R170). -/
def State.recordFails (s : State) (r : PeriodRecord) (sector start unit : Nat) (left : List Byte) (tag : Byte) : State :=
  let a := unitBase sector start
  let cells := failedCells s.store.cells a r.bytes unit left tag
  let st1 := s.store.voidAttempt sector start cells
  let retires := decide (3 ≤ (st1.sector sector).fails) || readCell cells a != 0#8
  let s1 := if retires then { s with store := st1.retire sector }.postDefect sector 1 else { s with store := st1 }
  if s.store.pfw then s1 else s1.mapStore fun st => st.remake r

/-- RECORD_UNIT_FAIL (R160). -/
def execRecordUnitFail (unit : Nat) (left : List Byte) (tag : Byte) (s : State) : Out :=
  .next (match s.store.current with
    | some (.record r sector start) =>
      if unit < r.units ∧ programFails s.store.cells (unitBase sector start + 32 * unit) (r.bytes.drop (32 * unit)) left
      then s.recordFails r sector start unit left tag else s
    | _ => s)

/-! ### Release marks and reads (R161, R165) -/

/-- The entry of the index that starts at a unit. -/
def Store.entryAt (st : Store) (sector unit : Nat) : Option IndexEntry :=
  st.index.find? fun e => e.sector == sector && e.unit == unit

/-- Where a record's release mark lies: byte 158 for the seller, 159 for the buyer. -/
def markAddress (sector unit : Nat) (bySeller : Bool) : Nat := unitBase sector unit + (if bySeller then 158 else 159)

/-- A mark set in the index. -/
def IndexEntry.marked (e : IndexEntry) (sector unit : Nat) (bySeller : Bool) : IndexEntry :=
  if e.sector = sector ∧ e.unit = unit then
    { e with valid := e.valid.map fun v => if bySeller then { v with sellerMark := true } else { v with buyerMark := true } }
  else e

/-- The data of RELEASE RECORD: the record, and both marks after the request. -/
def releaseData (cells : List Host.Cell) (sector unit contract period : Nat) : List Byte :=
  be 1 sector ++ be 1 unit ++ be 1 contract ++ be 4 period ++
  markByte (readCell cells (markAddress sector unit true) != erasedByte) ++
  markByte (readCell cells (markAddress sector unit false) != erasedByte)

/-- The last missing mark of a FULL sector makes it RELEASABLE, and the erase conditions are tested (R161, R162). -/
def Store.release (st : Store) (sector : Nat) : Store :=
  if (st.sector sector).state = .full ∧ st.allReleased sector then (st.setState sector .releasable).testErases else st

/-- A mark program is read back (R161). One that ends STATE has no data (assumption 70). -/
def State.markDone (s : State) (p : Party) (sector unit : Nat) (bySeller : Bool) (contract period : Nat) (mark : Byte) :
    State :=
  let a := markAddress sector unit bySeller
  let cells := writeCell s.store.cells a (readCell s.store.cells a &&& mark)
  if readCell cells a = erasedByte then (s.mapStore fun st => { st with cells := cells, current := none }).respond p .state []
  else
    (s.mapStore fun st =>
      { st with
        cells := cells, current := none
        index := st.index.map fun (e : IndexEntry) => e.marked sector unit bySeller }.release sector).respond p .ok
      (releaseData cells sector unit contract period)

/-- MARK_PROGRAM_DONE (R161). A mark overtaken by a store clear answers GONE without data (assumption 70),
and nothing is programmed. -/
def execMarkProgramDone (mark : Byte) (s : State) : Out :=
  .next (match s.store.current with
    | some (.mark p sector unit bySeller contract period gone) =>
      if gone then (s.mapStore fun st => { st with current := none }).respond p .gone []
      else s.markDone p sector unit bySeller contract period mark
    | _ => s)

/-- The checks that READ RECORD and RELEASE RECORD share (R161, conditions 2 and 3). -/
def judgeStored (s : State) (sector unit : Nat) (rule : State × Reply) : State × Reply :=
  if sector < 10 ∨ 63 < sector ∨ 127 < unit then refuse s .range
  else match (s.store.sector sector).state with
    | .erased => refuse s .gone
    | .erasing => refuse s .gone
    | .retired => refuse s .gone
    | _ => rule

/-- RELEASE RECORD past the state check (R161). -/
def releaseRule (p : Party) (sector unit : Nat) (s : State) : State × Reply :=
  judgeStored s sector unit
    (match (s.store.entryAt sector unit).bind IndexEntry.valid with
      | none => refuse s .range
      | some v =>
        let bySeller := partyCode p == v.seller
        if !bySeller && partyCode p != v.buyer then refuse s .denied
        else if (if bySeller then v.sellerMark else v.buyerMark) then
          answer s (be 1 sector ++ be 1 unit ++ be 1 v.contract ++ be 4 v.period ++ markByte v.sellerMark ++
            markByte v.buyerMark)
        else (s.mapStore fun st => st.enqueue (.mark p sector unit bySeller v.contract v.period false), .waiting))

/-- RELEASE RECORD (R161). -/
def execReleaseRecord (p : Party) (sector unit : Nat) (s : State) : Out :=
  .next (s.request p .releaseRecord (releaseRule p sector unit))

/-- The last part of a record: the pieces of 96 entry bytes that its length leaves room for (R165). -/
def IndexEntry.lastPart (e : IndexEntry) : Nat := 1 + divUp (e.length - 5) 3

/-- READ RECORD past the state check (R165). -/
def readRecordRule (p : Party) (sector unit part : Nat) (s : State) : State × Reply :=
  judgeStored s sector unit
    (match s.store.entryAt sector unit with
      | none => refuse s .range
      | some e =>
        if e.lastPart < part then refuse s .range
        else (s.mapStore fun st => st.enqueue (.read p e part false), .waiting))

/-- READ RECORD (R165). -/
def execReadRecord (p : Party) (sector unit part : Nat) (s : State) : Out :=
  .next (s.request p .readRecord (readRecordRule p sector unit part))

/-- The bytes of a record from one offset up to another, no further than its last unit. -/
def recordBytes (cells : List Host.Cell) (e : IndexEntry) (lo hi : Nat) : List Byte :=
  readBytes cells (unitBase e.sector e.unit + lo) (min hi (32 * e.length) - lo)

/-- The bytes of a part (R165): the header in two parts, then the interval entry bytes in pieces of 96. -/
def recordPart (cells : List Host.Cell) (e : IndexEntry) (part : Nat) : List Byte :=
  if part = 0 then recordBytes cells e 0 80
  else if part = 1 then recordBytes cells e 80 160
  else
    let lo := 160 + 96 * (part - 2)
    let top := match e.valid with
      | some _ => 160 + 10 * (readCell cells (unitBase e.sector e.unit + 7)).toNat
      | none => 32 * e.length
    recordBytes cells e lo (min (lo + 96) top)

/-- The record sequence number of a record; a free value for a void span that does not reach it. -/
def recordSequence (cells : List Host.Cell) (e : IndexEntry) : List Byte :=
  if e.length < 5 then be 4 (Config.shortVoidSequence e.sector e.unit).toNat
  else readBytes cells (unitBase e.sector e.unit + 154) 4

/-- The data of READ RECORD. -/
def recordData (cells : List Host.Cell) (e : IndexEntry) (part : Nat) : List Byte :=
  markByte e.valid.isSome ++ recordSequence cells e ++ recordPart cells e part

/-- RECORD_READ_DONE (R165). -/
def execRecordReadDone (s : State) : Out :=
  .next (match s.store.current with
    | some (.read p e part gone) =>
      let s1 := s.mapStore fun st => { st with current := none }
      if gone then s1.respond p .gone [] else s1.respond p .ok (recordData s.store.cells e part)
    | _ => s)

/-! ### Erases (R163, R164, R167, R169) -/

/-- The end of a configuration sector's erase: the commit that waited for it goes on (R16, R167). -/
def State.configErased (s : State) (n : Nat) (ok : Bool) : State :=
  let s1 := if ok then s else s.postDefect n 2
  match s.station.commit with
  | none => s1
  | some c =>
    if c.phase = .erasingTarget ∧ c.target = n then (if ok then s1.queueConfig c.approver n else s1.failCommit)
    else if c.phase = .erasingOther ∧ c.target ≠ n then s1.endCommit
    else s1

/-- The end of a checkpoint sector's erase (R169). A sector whose erase fails holds no checkpoint from then on, and no
sequence number that start-up finds (assumption 71). -/
def State.ckptErased (s : State) (n : Nat) (ok : Bool) : State :=
  let s1 := s.mapStore fun st => { st with
    ckpts := st.ckpts.set (ckptIndex n) (if ok then ⟨.erased, .blank⟩ else ⟨.retired, .bad none⟩) }
  if ok then s1 else s1.postDefect n 2

/-- A record sector after its erase (R156, R163). -/
def RecSector.afterErase (r : RecSector) (ok holdsWrite : Bool) : RecSector :=
  if !ok then { r with state := .retired, retiring := false }
  else if r.retiring then ⟨.retired, false, 0⟩
  else if holdsWrite then ⟨.filling, false, 0⟩
  else ⟨.erased, false, 0⟩

/-- A write position whose sector has been retired by its erase moves on (R164), after a store clear and after a restart
alike (assumption 62). -/
def Store.moveOffRetired (st : Store) (n : Nat) : Store :=
  if st.writeSector = n ∧ (st.sector n).state = .retired then
    match (ringAfter n).find? fun m => (st.sector m).state != .retired with
    | some m => st.startAt m
    | none => st
  else st

/-- A sector leaves the store clear that listed it; the last one ends the clear (R164). -/
def Store.clearLeft (st : Store) (n : Nat) : Store :=
  { st with clearing := match st.clearing with
    | some listed =>
      let rest := listed.filter fun m => m != n
      if rest.isEmpty then none else some rest
    | none => none }

/-- The store once a record sector's erase has ended. The write sector, when it is the one erased, is filled from its
unit 0 (R164; assumption 53). -/
def Store.afterErase (st : Store) (n : Nat) (ok : Bool) : Store :=
  { st.mapSector n fun r => r.afterErase ok (st.writeSector == n) with
    nextUnit := if st.writeSector = n then 0 else st.nextUnit }

/-- The end of a record sector's erase (R163, R164). -/
def State.recordErased (s : State) (n : Nat) (ok : Bool) : State :=
  let s1 := s.mapStore fun st => st.afterErase n ok
  let s2 := if ok then s1 else s1.postDefect n 2
  s2.mapStore fun st => ((st.moveOffRetired n).clearLeft n).testErases

/-- A sector erase ends (R163). -/
def State.eraseDone (s : State) (n : Nat) (left : List Byte) : State :=
  let ok := (left.take 4096).all fun b => b == erasedByte
  let s1 := s.mapStore fun st => { st with
    current := none, eraseMs := 0, eraseList := st.eraseList.filter fun m => m != n
    cells := if 2 ≤ n ∧ n < 10 then st.cells else leaveSector st.cells n left }
  if n < 2 then s1.configErased n ok
  else if n < 10 then s1.ckptErased n ok
  else s1.recordErased n ok

/-- SECTOR_ERASE_DONE (R163). -/
def execSectorEraseDone (left : List Byte) (s : State) : Out :=
  .next (match s.store.current with
    | some (.erase n) => s.eraseDone n left
    | _ => s)

/-! ### Configuration and checkpoint programs (R167, R169) -/

/-- The configuration program verifies: the image is in force for any later restart, and the other sector's erase is
listed (R16, steps 2 and 3). -/
def State.configDone (s : State) (sector generation : Nat) (image : Image) : State :=
  let s1 := s.mapStore fun st => { st with
    cells := programBytes st.cells (sectorBase sector) (imageBytes generation image)
    current := none, imageSector := some sector }.listErase (1 - sector)
  s1.mapStation fun x => { x with commit := x.commit.map fun c => { c with phase := .erasingOther } }

/-- A unit of the configuration program fails to verify (R16, R167). -/
def State.configFails (s : State) (sector unit : Nat) (written left : List Byte) : State :=
  let a := sectorBase sector
  ((s.mapStore fun st => { st with
    cells := programBytes (programBytes st.cells a (written.take (32 * unit))) (a + 32 * unit) (unitOf left)
    current := none }).postDefect sector 1).failCommit

/-- CONFIG_PROGRAM_DONE (R167). -/
def execConfigProgramDone (failed : Option (Nat × List Byte)) (s : State) : Out :=
  .next (match s.store.current with
    | some (.config sector generation image) =>
      match failed with
      | none => s.configDone sector generation image
      | some (unit, left) =>
        let written := imageBytes generation image
        if unit < 59 ∧ programFails s.store.cells (sectorBase sector + 32 * unit) (written.drop (32 * unit)) left
        then s.configFails sector unit written left else s
    | _ => s)

/-- The last unit of a checkpoint program verifies: its sector is HELD and the new j, the warned mark is programmed
after PFW, and the two sectors after it are listed (R169, R170). The mark's program takes effect in the same event
(assumption 60). -/
def Store.ckptDone (st : Store) (c : Checkpoint) (target : Nat) : Store :=
  { st with
    ckpts := st.ckpts.set (ckptIndex target) ⟨.held, .good c st.pfw⟩
    lastCkpt := target, ckptSequence := st.ckptSequence + 1, current := none }.listTwoAfter target

/-- A checkpoint program that fails is abandoned (R169). -/
def Store.ckptFails (st : Store) (target : Nat) (sequence : Option Nat) : Store :=
  { st with ckpts := st.ckpts.set (ckptIndex target) ⟨.held, .bad sequence⟩, current := none }

/-- CHECKPOINT_PROGRAM_DONE (R169). -/
def execCheckpointProgramDone (failed : Option (Option Nat)) (s : State) : Out :=
  .next (match s.store.current with
    | some (.checkpoint c target) => s.mapStore fun st =>
      match failed with
      | none => st.ckptDone c target
      | some sequence => st.ckptFails target sequence
    | _ => s)

/-! ### Operations cut short (R153, R170) -/

/-- What a checkpoint sector holds once its erase or program is cut short. -/
def CkptContent.torn (x : CkptContent) : CkptLeft → CkptContent
  | .untouched => x
  | .erased => .blank
  | .bad sequence => .bad sequence

/-- The array with the checkpoint sector `n` cut short. -/
def Store.tearCkpt (st : Store) (n : Nat) (left : CkptLeft) : Store :=
  { st with ckpts := st.ckpts.modify (ckptIndex n) fun c => { c with content := c.content.torn left } }

/-- The array with the erase of sector `n` cut short. -/
def Store.tearErase (st : Store) (n : Nat) (torn : Torn) : Store :=
  if 2 ≤ n ∧ n < 10 then st.tearCkpt n torn.ckpt else { st with cells := leaveSector st.cells n torn.bytes }

/-- The bytes a mark program writes into the header's last unit: 00h into the mark, FFh elsewhere (R161). -/
def markUnit (bySeller : Bool) : List Byte :=
  List.replicate 30 erasedByte ++ (if bySeller then [0#8, erasedByte] else [erasedByte, 0#8])

/-- A configuration program cut short, which leaves its target DAMAGED (R167, R170): as the command says, or, where that
would leave the sector EMPTY or the image whole, with the generation alone programmed. The whole program stands last, for a
generation that no image may have, which reads DAMAGED too. -/
def tornConfig (cells : List Host.Cell) (sector generation : Nat) (image : Image) (torn : Torn) : List Host.Cell :=
  let cut (units : Nat) (partly : List Byte) : List Host.Cell :=
    tearProgram cells (sectorBase sector) (imageBytes generation image) units partly
  let left := cut torn.units torn.bytes
  if classifyConfig left sector = .damaged then left
  else if classifyConfig (cut 0 (List.replicate 4 0#8)) sector = .damaged then cut 0 (List.replicate 4 0#8)
  else cut 59 []

/-- The array with whatever it is doing cut short; nothing is being done any more. -/
def Store.tearCurrent (st : Store) (torn : Torn) : Store :=
  let st1 := { st with current := none }
  match st.current with
  | some (.record r sector unit) =>
    { st1 with cells := tearProgram st.cells (unitBase sector unit) r.bytes torn.units torn.bytes }
  | some (.mark _ sector unit bySeller _ _ gone) =>
    if gone then st1
    else { st1 with cells := tearUnit st.cells (unitBase sector unit + 128) (markUnit bySeller) torn.bytes }
  | some (.checkpoint _ target) => st1.tearCkpt target torn.ckpt
  | some (.config sector generation image) =>
    { st1 with cells := tornConfig st.cells sector generation image torn }
  | some (.erase n) => st1.tearErase n torn
  | some (.read ..) => st1
  | none => st1

/-- The sector whose erase is in progress or suspended. -/
def Store.erasing (st : Store) : Option Nat :=
  match st.current with
  | some (.erase n) => some n
  | _ => st.suspended

/-- The array with everything cut short: what it is doing, and an erase that is suspended. -/
def Store.tear (st : Store) (torn : Torn) : Store :=
  let st1 := match st.suspended with
    | some n => st.tearErase n torn
    | none => st
  { st1.tearCurrent torn with suspended := none, eraseMs := 0 }

/-! ### PFW (R170) -/

/-- What the array is doing goes on after PFW: anything but an erase or a configuration program. -/
def Activity.goesOn : Activity → Bool
  | .erase _ => false
  | .config .. => false
  | _ => true

/-- The store at the assertion of PFW: an erase is abandoned and noted, a configuration program abandoned, all other
waiting work dropped (R170). A store clear whose erases are dropped stays in progress until the restart
(assumption 69). -/
def Store.warn (st : Store) (torn : Torn) : Store :=
  let st1 := match st.suspended with
    | some n => st.tearErase n torn
    | none => st
  let st2 := match st.current with
    | some a => if a.goesOn then st1 else st1.tearCurrent torn
    | none => st1
  { st2 with
    pfw := true, abandoned := st.erasing, suspended := none, eraseMs := 0, queue := [], eraseList := [], gatherDue := none }

/-- A checkpoint program is being served; it counts as the emergency checkpoint (R170). -/
def Store.servesCkpt (st : Store) : Bool := match st.current with | some (.checkpoint ..) => true | _ => false

/-- PFW is asserted (R170). -/
def State.warn (s : State) (torn : Torn) : State :=
  if !s.board.mainOn || s.store.pfw then s
  else if !s.settled then s.mapStore fun st => { st with pfw := true }
  else
    let s1 := s.mapStore fun st => st.warn torn
    if s.store.servesCkpt then s1
    else { s1 with clock := { s1.clock with ckptTicks := 0 } }.beginCheckpoint true

/-- PFW (R170). -/
def execPfw (torn : Torn) (s : State) : Out := .next (s.warn torn)

/-! ### READ STORE (R166) -/

/-- Record sector state codes (R189). -/
def RecState.code : RecState → Nat
  | .erased => 0 | .filling => 1 | .full => 2 | .releasable => 3 | .erasing => 4 | .retired => 5

/-- Checkpoint sector state codes (R189). -/
def CkptState.code : CkptState → Nat
  | .erased => 0 | .erasing => 1 | .held => 2 | .retired => 3

/-- Configuration sector state codes (R189). -/
def ConfigClass.code : ConfigClass → Nat
  | .image _ => 0 | .empty => 1 | .damaged => 2

/-- How many record sectors stand in a state. -/
def Store.countState (st : Store) (x : RecState) : Nat := (st.sectors.entries.filter fun r => r.state == x).length

/-- Part 0. -/
def storeSummary (st : Store) : List Byte :=
  be 1 st.writeSector ++ be 1 st.nextUnit ++ be 4 st.sequence ++ be 4 st.reserved.length ++ be 4 st.queue.length ++
  be 4 st.eraseList.length ++ optField 1 st.erasing ++ markByte st.suspended.isSome ++ be 4 st.eraseMs ++
  [RecState.erased, .filling, .full, .releasable, .erasing, .retired].flatMap (fun x => be 4 (st.countState x)) ++
  be 4 (st.sectors.entries.filter fun r => r.retiring).length ++ be 1 st.lastCkpt ++ be 4 st.ckptSequence ++
  markByte st.clearing.isSome

/-- Part 1. -/
def storeCodes (st : Store) : List Byte :=
  [0, 1].flatMap (fun n => be 1 (classifyConfig st.cells n).code) ++
  st.ckpts.entries.flatMap (fun c => be 1 c.state.code) ++
  st.sectors.entries.flatMap fun r => be 1 (r.state.code + if r.retiring then 128 else 0)

/-- Both release marks of a record are set. -/
def IndexEntry.released (e : IndexEntry) : Bool :=
  match e.valid with
  | some v => v.sellerMark && v.buyerMark
  | none => false

/-- The figures of one record sector: valid, void and released records, units used, failure count. The units used are
those up to the end of the last indexed span, 0 where the entries have left the index (assumption 54). -/
def sectorData (st : Store) (n : Nat) : List Byte :=
  let here := st.index.filter fun e => e.sector == n
  be 1 (here.filter fun e => e.valid.isSome).length ++ be 1 (here.filter fun e => e.valid.isNone).length ++
  be 1 (here.filter IndexEntry.released).length ++ be 1 (here.foldl (fun m e => max m (e.unit + e.length)) 0) ++
  be 1 (st.sector n).fails

/-- The data of READ STORE. -/
def storeData (st : Store) (part : Nat) : List Byte :=
  if part = 0 then storeSummary st
  else if part = 1 then storeCodes st
  else (List.range 9).flatMap fun k => sectorData st (10 + 9 * (part - 2) + k)

/-- READ STORE past the state check. -/
def readStoreRule (part : Nat) (s : State) : State × Reply :=
  if 7 < part then refuse s .range else answer s (storeData s.store part)

/-- READ STORE (R166). -/
def execReadStore (p : Party) (part : Nat) (s : State) : Out := .next (s.request p .readStore (readStoreRule part))

end Sys2Proof.Machine
end

