-- ==== Sys2Proof/Machine/Restart.lean ====
section
/-! DEFINITION. Restart (sections 9.8 and 10.3): the start-up reads and the walk, the clock, restoration, closing
accounts, catch-up, departure, and the commands of nRESET and the main supply. -/

namespace Sys2Proof.Machine

/-! ### Start-up reads (R171) -/

/-- The configuration sector whose image is in force, with that image: the IMAGE sector of higher generation. -/
def foundImage (cells : List Host.Cell) : Option (Nat × Programmed) :=
  match classifyConfig cells 0, classifyConfig cells 1 with
  | .image p, .image q => if p.generation < q.generation then some (1, q) else some (0, p)
  | .image p, _ => some (0, p)
  | _, .image q => some (1, q)
  | _, _ => none

/-- The sector that a commit from BLANK targets. -/
def blankTargetOf (cells : List Host.Cell) : Nat :=
  if classifyConfig cells 1 = .damaged ∧ classifyConfig cells 0 ≠ .damaged then 1 else 0

/-- A good checkpoint with its sector, and whether it is warned: its warned mark, or its kind (R171). -/
structure FoundCheckpoint where
  sector : Nat
  checkpoint : Checkpoint
  warned : Bool
  deriving DecidableEq, Repr

/-- The newer of two good checkpoints. -/
def newer (a b : Option FoundCheckpoint) : Option FoundCheckpoint :=
  match a, b with
  | some x, some y => if x.checkpoint.sequence < y.checkpoint.sequence then b else a
  | none, _ => b
  | _, none => a

/-- The good checkpoint of a sector, if it holds one. -/
def goodIn (st : Store) (n : Nat) : Option FoundCheckpoint :=
  match (st.ckpt n).content with
  | .good c warned => some ⟨n, c, warned || c.emergency⟩
  | _ => none

/-- The numbers of the checkpoint sectors. -/
def ckptSectors : List Nat := (List.range 8).map fun k => 2 + k

/-- The good checkpoint of highest sequence number. -/
def foundCheckpoint (st : Store) : Option FoundCheckpoint :=
  ckptSectors.foldl (fun best n => newer best (goodIn st n)) none

/-- The highest sequence number found in the checkpoint area, 0 when none is found. -/
def highestCkpt (st : Store) : Nat :=
  ckptSectors.foldl (fun m n => match (st.ckpt n).content with
    | .good c _ => max m c.sequence
    | .bad (some k) => max m k
    | _ => m) 0

/-! ### The walk (R172) -/

/-- A span that the walk reads: its place, what it is worth, and the sequence number of a record whose header check
word matches. -/
structure WalkEntry where
  unit : Nat
  length : Nat
  valid : Option ValidRecord
  sequence : Option Nat
  deriving DecidableEq, Repr

/-- The span that starts at a unit (R172). -/
def readSpan (cells : List Host.Cell) (sector unit length : Nat) : WalkEntry :=
  let a := unitBase sector unit
  let byte (k : Nat) : Nat := (readCell cells (a + k)).toNat
  let word (k : Nat) : Nat := ofBe (readBytes cells (a + k) 4)
  let n := byte 7
  let headerOk := 5 ≤ length ∧ byte 0 = 0x5A ∧ crc32 (readBytes cells a 150) = word 150
  let entriesOk := n ≤ 96 ∧ length = recordUnits n ∧
    word 146 = (if n = 0 then 0 else crc32 (readBytes cells (a + 160) (10 * n)))
  { unit := unit, length := length
    valid := if headerOk ∧ entriesOk then
      some ⟨byte 2, word 8, byte 4 / 16, byte 4 % 16, word 154, byte 158 != 255, byte 159 != 255⟩ else none
    sequence := if headerOk then some (word 154) else none }

/-- The walk of a sector from a unit on: its spans, and where its filled part ends. -/
def walkFrom (cells : List Host.Cell) (sector : Nat) : Nat → Nat → List WalkEntry × Nat
  | 0, unit => ([], unit)
  | fuel + 1, unit =>
    if 128 ≤ unit then ([], unit)
    else match unitSpan cells sector unit with
      | none => ([], unit)
      | some n =>
        let r := walkFrom cells sector fuel (unit + n)
        (readSpan cells sector unit n :: r.1, r.2)

/-- What the walk finds of a sector. -/
structure SectorWalk where
  sector : Nat
  spans : List WalkEntry
  /-- where the filled part ends -/
  stop : Nat
  /-- a byte other than FFh lies after the filled part: the sector was caught in an erase -/
  caught : Bool
  deriving DecidableEq, Repr

/-- The walk of one sector. -/
def walkSector (cells : List Host.Cell) (sector : Nat) : SectorWalk :=
  if sectorBlank cells sector then ⟨sector, [], 0, false⟩
  else
    let r := walkFrom cells sector 128 0
    ⟨sector, r.1, r.2, !blankRange cells (unitBase sector r.2) (sectorBase (sector + 1))⟩

/-- The entries that a sector gives the index. -/
def SectorWalk.entries (w : SectorWalk) : List IndexEntry :=
  w.spans.map fun x => ⟨w.sector, x.unit, x.length, x.valid⟩

/-- The highest sequence number of a sector's records whose header check word matches. -/
def SectorWalk.highest (w : SectorWalk) : Option Nat :=
  w.spans.foldl (fun m x => match m, x.sequence with
    | some a, some b => some (max a b)
    | none, some b => some b
    | m, none => m) none

/-! ### The store rebuilt (R171, R173) -/

/-- The sector and sequence number that lead so far, and the next sector's; of two with one number the first leads
(assumption 59). -/
def leading (best : Option (Nat × Nat)) (w : SectorWalk) : Option (Nat × Nat) :=
  match best, w.highest with
  | some (n, a), some b => if a < b then some (w.sector, b) else some (n, a)
  | none, some b => some (w.sector, b)
  | best, none => best

/-- The write sector that the walk gives (R173), of the sectors that are neither RETIRED (R163; assumption 73) nor caught in
an erase (assumption 26). -/
def writeFound (walks : List SectorWalk) (retired : List Nat) : Nat :=
  let usable := walks.filter fun w => !w.caught && !retired.contains w.sector
  match usable.foldl leading none with
  | some found => found.1
  | none =>
    match usable.find? fun w => w.stop == 0 with
    | some w => w.sector
    | none => (ringFromStart.find? fun n => !retired.contains n).getD 10

/-- The highest sequence number found in a header whose check word matches, in sectors caught in an erase too; 0 when none
is found (R173). -/
def sequenceFound (walks : List SectorWalk) : Nat := walks.foldl (fun m w => max m (w.highest.getD 0)) 0

/-- The state of a record sector as the walk gives it. -/
def foundState (walk : SectorWalk) (write : Nat) (retired : List Nat) (released : Bool) : RecState :=
  if retired.contains walk.sector then .retired
  else if walk.caught then .erasing
  else if walk.sector = write then .filling
  else if walk.stop = 0 then .erased
  else if released then .releasable else .full

/-- The checkpoint area as start-up classes it (R171). -/
def foundCkpts (st : Store) (retired : List Nat) : Table CkptSector 8 :=
  st.ckpts.mapFin fun i c =>
    { c with state :=
        if retired.contains (2 + i.val) then .retired else if c.content = .blank then .erased else .held }

/-- The store as start-up rebuilds it (R171 to R173). With no image the checkpoint says nothing about the record area. -/
def Store.rebuilt (st : Store) (found : Option FoundCheckpoint) (image : Option (Nat × Programmed)) : Store :=
  let kept := if image.isSome then found.map fun f => f.checkpoint.store else none
  let retired := (kept.map StoreKept.retired).getD []
  let retiring := (kept.map StoreKept.retiring).getD []
  let walks := ringFromStart.map (walkSector st.cells)
  let index := (walks.filter fun w => !w.caught && !retired.contains w.sector).flatMap SectorWalk.entries
  let write := writeFound walks retired
  let base : Store :=
    { Store.erasedArray with
      cells := st.cells
      ckpts := foundCkpts st ((found.map fun f => f.checkpoint.store.retiredCkpts).getD [])
      index := index
      writeSector := write
      nextUnit := (walkSector st.cells write).stop
      sequence := max (sequenceFound walks) ((kept.map StoreKept.sequence).getD 0)
      imageSector := image.map Prod.fst
      blankTarget := blankTargetOf st.cells
      lastCkpt := (found.map FoundCheckpoint.sector).getD 9
      ckptSequence := (found.map fun f => f.checkpoint.sequence).getD (highestCkpt st) }
  let placed := { base with sectors := Table.ofFn fun i =>
    let n := 10 + i.val
    ⟨foundState (walkSector st.cells n) write retired (base.allReleased n), retiring.contains n, 0⟩ }
  let listed := placed.listTwoAfter placed.lastCkpt
  let caught := ((walks.filter fun w => w.caught && !retired.contains w.sector).map SectorWalk.sector).foldl
    Store.listErase listed
  let abandoned := match kept.bind StoreKept.abandoned with
    | some n => if retired.contains n ∨ some n = image.map Prod.fst then caught else caught.listErase n
    | none => caught
  abandoned.testErases

/-! ### Clock (R177, R178) -/

/-- The backup domain is read against the label of the checkpoint. -/
def Clock.backup (k : Clock) (label : Nat) : BackupResult :=
  if !k.valid then .lost else if k.domain < label then .behind else .valid

/-- The clock as STARTING takes it. -/
def Clock.taken (k : Clock) (label : Nat) : Clock :=
  if k.backup label = .valid then { k with time := k.domain }
  else { k with time := label, domain := label, valid := true, suspect := true, suspectAt := label }

/-- What a restart clears of the clock (R187). -/
def Clock.cleared (k : Clock) : Clock :=
  { k with adjustments := noAdjustments, lastAdjustment := none, frameTimer := none, ckptTicks := 0 }

/-! ### Restoration (R184) -/

/-- A consumer record after restart (R115). -/
def Consumer.restored (c : Consumer) : Consumer := if c.state = .changing then c.settle else c.kept

/-- The consumer record of an entry after restart. An entry absent from the image found is OUT (R97); one that was OUT when
the checkpoint was taken and is present in the image found starts READY, as R18 has it (assumption 39). -/
def restoredConsumer (img : Image) (e : Fin 12) (c : Consumer) : Consumer :=
  if (img.operator e).isNone then Consumer.absent
  else if c.state = .out then firstConsumer img e
  else c.restored

/-- A slot after restart (R35). -/
def Slot.restored (lastGood : Option Int) : Slot :=
  match lastGood with
  | some v => { Slot.atStart with state := .substituted, lastGood := some v, cause := some .restart }
  | none => Slot.atStart

/-- The flags after restart: F0 to F3 as kept, the others CLEAR (R71). -/
def restoredFlags (kept : Table Flag 4) : Table Flag 8 :=
  Table.ofFn fun i => if h : i.val < 4 then kept.get ⟨i.val, h⟩ else Flag.atStart

/-- A comparison window after restart (R39): with the DOUBTFUL condition kept, which a stream without a check input under the
image found never has (R38). -/
def restoredWindow (img : Image) (i : Fin 8) (k : StreamKept) : CheckWindow :=
  { CheckWindow.atStart with doubtful := k.doubtful && (img.windowInput i).isSome }

/-- Every block takes its values from the checkpoint. -/
def State.restored (s : State) (c : Checkpoint) : State :=
  { s with
    fiscal := ⟨c.streams.map fun k => ⟨k.total, k.residual, 0, 0, k.errorSeconds, k.reverseSeconds, none⟩, none⟩
    pulses := { Pulses.atStart with windows := c.streams.mapFin (restoredWindow s.img) }
    sensor := { Sensor.atStart with slots := c.lastGood.map Slot.restored }
    alloc := { Allocator.atStart with
      frameNumber := c.frameNumber, pointers := c.pointers, flags := restoredFlags c.partyFlags
      consumers := c.consumers.mapFin (restoredConsumer s.img) }
    tracker := c.tracker.kept
    billing := c.billing }

/-- The highest tariff identity recorded in a valid record of the index (R184). -/
def Store.highestIdentity (st : Store) : Nat :=
  st.index.foldl (fun m e =>
    if e.valid.isSome then max m (ofBe (readBytes st.cells (unitBase e.sector e.unit + 20) 4)) else m) 0

/-- The highest period number of a contract among the valid records of the index (R184). -/
def Store.highestPeriod (st : Store) (c : Fin 4) : Nat :=
  st.index.foldl (fun m e => match e.valid with
    | some v => if v.contract = c.val then max m v.period else m
    | none => m) 0

/-- The tariff identity counter from which the commissioning tariffs of a restart without a checkpoint are numbered: one
above the highest identity recorded, or 0 when no record records one (R184, assumption 56). -/
def Store.identityFloor (st : Store) : Nat :=
  if st.highestIdentity = 0 then 0 else nextIdentity st.highestIdentity

/-- With no good checkpoint every block starts as at the entry from BLANK, with the exceptions of R184. -/
def State.startedAnew (s : State) : State :=
  { s with
    alloc := firstAllocator s.img, tracker := firstTracker s.img
    billing := s.firstBilling s.store.identityFloor fun c => s.store.highestPeriod c + 1 }

/-! ### Closing accounts (R185) -/

/-- A restored closing account is dropped when its record is in the store, and handed again otherwise. -/
def State.checkClosing (s : State) (c : Fin 4) : State :=
  match (s.contract c).closing with
  | none => s
  | some a =>
    if s.store.holdsRecord c.val a.period then s.mapContract c fun k => { k with closing := none }
    else s.handAccount c a

/-- The closing accounts of all contracts. -/
def State.checkClosings (s : State) : State := (List.finRange 4).foldl State.checkClosing s

/-! ### Catch-up (R128, R186) -/

/-- Every open account changed. -/
def State.mapOpened (s : State) (f : Account → Account) : State :=
  { s with billing := { s.billing with contracts := s.billing.contracts.map fun k => { k with opened := f k.opened } } }

/-- Outage seconds are added to every open account, which takes the OUTAGE flag. -/
def State.addOutage (s : State) (seconds : Nat) : State :=
  s.mapOpened fun a => { a with outageSeconds := a.outageSeconds + seconds, outage := true }

/-- The running interval takes its OUTAGE mark. -/
def State.markOutage (s : State) : State := s.mapTracker fun t => { t with outage := true }

/-- One boundary of catch-up, reached from the point before it. -/
def State.catchUpAt (s : State) (previous boundary : Nat) : State :=
  (((s.addOutage (boundary - previous)).closeInterval.mapTracker Tracker.beginNext).markOutage).takeBoundaries boundary

/-- The interval boundary that follows a station time. -/
def nextIntervalBoundary (img : Image) (t : Nat) : Nat := (intervalOf img t + 1) * img.intervalLength - img.dayOffset

/-- `n` boundaries of catch-up, and the point reached. -/
def State.catchUpSteps (s : State) (previous : Nat) : Nat → State × Nat
  | 0 => (s, previous)
  | n + 1 =>
    let b := nextIntervalBoundary s.img previous
    (s.catchUpAt previous b).catchUpSteps b n

/-- Catch-up from the checkpoint label to the resume point (R186). -/
def State.catchUp (s : State) (label resume : Nat) (warned : Bool) : State :=
  let s1 := if warned then s else s.mapOpened fun a => { a with unwarned := true }
  let r := s1.markOutage.catchUpSteps label (intervalOf s.img resume - intervalOf s.img label)
  r.1.addOutage (resume - r.2)

/-- The resume point is fixed, and catch-up is taken to it (R186, R188). -/
def State.fixResume (s : State) (resume : Nat) : State :=
  match s.startup with
  | none => s
  | some r =>
    let s1 := { s with
      clock := { s.clock with time := resume, lastLabel := resume }
      startup := some { r with resume := some resume } }
    s1.catchUp r.label resume r.warned

/-! ### The restart (R183) -/

/-- A port when STARTING begins: its filter is the default of the image found (R199). -/
def restartPorts (image : Option (Nat × Programmed)) : Table Port 3 :=
  Table.ofFn fun i => Port.atStart (match image with
    | some (_, p) => BitVec.ofInt 32 (p.image.get 0x4C i.val)
    | none => Port.allKinds)

/-- Steps 1 to 3 of R183, and everything a restart forgets. -/
def State.begunRestart (s : State) (cause : RestartCause) : State :=
  let image := foundImage s.store.cells
  let found := foundCheckpoint s.store
  { pending := s.pending
    board := s.board
    ports := restartPorts image
    station := ⟨.starting, image.map Prod.snd, none, noApprovals, none, ConsentWindow.closed, ConsentWindow.closed⟩
    sensor := Sensor.atStart
    pulses := Pulses.atStart
    fiscal := Fiscal.atStart
    decls := Table.replicate 13 Declaration.atStart
    alloc := Allocator.atStart
    tracker := Tracker.atStart
    billing := Billing.atStart
    store := s.store.rebuilt found image
    clock := s.clock.cleared
    startup := some
      { cause := cause
        toBlank := image.isNone
        warned := (found.map FoundCheckpoint.warned).getD false
        noCheckpoint := image.isSome && found.isNone
        backup := none
        sequence := found.map fun f => f.checkpoint.sequence
        label := (found.map fun f => f.checkpoint.label).getD 0
        resume := none }
    free := s.free }

/-- Steps 4 to 6 of R183, and catch-up at once where the backup does not give a Valid time. -/
def State.resumed (s : State) (found : Option FoundCheckpoint) (label : Nat) : State :=
  let backup := s.clock.backup label
  let s1 := { s with
    clock := s.clock.taken label
    startup := s.startup.map fun (r : Restarting) => { r with backup := some backup } }
  let s2 := match found with
    | some f => s1.restored f.checkpoint
    | none => s1.startedAnew
  let s3 := s2.checkClosings
  if backup = .valid then s3 else s3.fixResume label

/-- A restart enters STARTING and runs its work as far as the resume point (R183). -/
def State.restart (s : State) (cause : RestartCause) : State :=
  let found := foundCheckpoint s.store
  let s1 := s.begunRestart cause
  if s1.station.inForce.isNone then s1
  else s1.resumed found ((found.map fun f => f.checkpoint.label).getD 0)

/-! ### nRESET and the main supply (R200) -/

/-- RESET_ASSERT (R200). -/
def execResetAssert (s : State) : Out := .next { s with board := { s.board with resetLow := true } }

/-- How long nRESET must be held low, in microseconds (R200). -/
def resetMicroseconds : Nat := 10

/-- RESET_RELEASE (R183, R200): a low pulse shorter than 10 µs is ignored; with the main supply absent there is nothing
to restart. -/
def execResetRelease (held : Nat) (torn : Torn) (s : State) : Out :=
  let s1 := { s with board := { s.board with resetLow := false } }
  .next (if s.board.resetLow && s.board.mainOn && decide (resetMicroseconds ≤ held) then
      (s1.mapStore fun st => st.tear torn).restart .reset
    else s1)

/-- MAIN_SUPPLY_LOSS (R200): the part stops, and what the array was doing is cut short. -/
def execMainSupplyLoss (torn : Torn) (s : State) : Out :=
  .next (if s.board.mainOn then
      { s with board := { s.board with mainOn := false }, store := s.store.tear torn }
    else s)

/-- POWER_RETURN (R183): the return of the main supply begins a restart. -/
def execPowerReturn (s : State) : Out :=
  .next (if s.board.mainOn then s else { s with board := { s.board with mainOn := true } }.restart .powerUp)

/-! ### Departure (R187) -/

/-- The RESTARTED notice. -/
def restartedNotice (r : Restarting) (subject time outage : Nat) (suspect : Bool) : Notice :=
  ⟨.restarted, subject, time, BitVec.ofNat 32 outage, suspect,
    (if r.warned then 0 else 1) + (if r.noCheckpoint then 2 else 0), r.cause.code⟩

/-- The last restart summary. -/
def Restarting.summary (r : Restarting) (resume : Nat) : RestartSummary :=
  ⟨r.cause, r.warned, r.noCheckpoint, r.backup, r.sequence, r.label, resume, resume - r.label⟩

/-- Departure to BLANK: the edit image holds the factory defaults, and the domain's validity is cleared (R7, R187). -/
def State.departBlank (s : State) (r : Restarting) : State :=
  let s1 := { s with
    station := { s.station with state := .blank, edit := some Image.factory }
    clock := { s.clock with time := 0, domain := 0, valid := false, lastRestart := some (r.summary 0) }
    startup := none }
  s1.deliver allParties (restartedNotice r 0 0 0 s.clock.suspect)

/-- Departure to OPERATING at the resume point (R187). -/
def State.departOperating (s : State) (r : Restarting) (resume : Nat) : State :=
  let s1 := { s with
    station := { s.station with state := .operating }
    clock := { s.clock with
      frameTimer := some (0, s.img.frameLength), ckptTicks := 0, lastRestart := some (r.summary resume) }
    startup := none }
  s1.deliver allParties (restartedNotice r 1 resume (resume - r.label) s.clock.suspect)

/-- DEPARTURE (R187): due once STARTING leads to BLANK, or once the resume point is fixed. -/
def execDeparture (s : State) : Out :=
  .next (if s.board.mainOn then
    match s.startup with
    | some r =>
      if r.toBlank then s.departBlank r
      else match r.resume with
        | some resume => s.departOperating r resume
        | none => s
    | none => s
  else s)

end Sys2Proof.Machine
end

