-- ==== Sys2Proof/Machine/TickFlow.lean ====
section
/-! DEFINITION. The second (R40 to R42, R53 to R56, R100, R175, R181): the tick timer boundary, the integration of a tick
with its hand-offs, and what a boundary finds still due from the one before. -/

namespace Sys2Proof.Machine

/-! ### TICK_INTEGRATION (R42) -/

/-- The carry of the POWER stream in the tick just integrated, 0 without such a stream (R54, R122). -/
def State.exportCarry (s : State) : Nat :=
  match s.img.presentStreams.find? fun i => s.img.streamKind i == .power with
  | some i => ((s.fiscal.streams.get i).last.map LastTick.carry).getD 0
  | none => 0

/-- The frame timer counts an integrated tick in OPERATING; the one that completes the frame sets the frame averages
and leaves the frame to be run (R56, R73). -/
def State.countFrame (s : State) (label : Nat) : State :=
  if s.station.state ≠ .operating then s
  else match s.clock.frameTimer with
    | none => s
    | some (count, length) =>
      if count + 1 < length then { s with clock := { s.clock with frameTimer := some (count + 1, length) } }
      else { s with
        clock := { s.clock with frameTimer := some (0, length) }
        fiscal := { s.fiscal with streams := s.averagedStreams length }
        alloc := { s.alloc with frameDue := some label } }

/-- The tick is counted toward the next periodic checkpoint, and its label kept (R58, R168). -/
def State.countTick (s : State) (label : Nat) : State :=
  { s with clock := { s.clock with ckptTicks := s.clock.ckptTicks + 1, lastLabel := label } }

/-- The hand-offs of a tick: the delivery, the export, the boundaries (R53, R54, R122, R137, R146). -/
def State.handOffTick (s : State) (label : Nat) : State :=
  let s1 := s.creditDelivery (label - 1)
  (s1.handOff label s1.exportCarry).takeBoundaries label

/-- A tick's integration: streams, hand-offs, frame count, and what waited for the hand-offs (R41, R42, R58). -/
def State.integrateTick (s : State) (label : Nat) : State :=
  ((((s.integrateStreams label).handOffTick label).countFrame label).countTick label).gatherWaiting.enterWaiting

/-- The tick in integration is integrated, if there is one. -/
def State.takeTick (s : State) : State :=
  if s.blocksRun then
    match s.fiscal.tick with
    | some label => s.integrateTick label
    | none => s
  else s

/-- TICK_INTEGRATION (R42). -/
def execTickIntegration (s : State) : Out := .next s.takeTick

/-! ### What a boundary finds still due (assumption 5) -/

/-- An expiry of a consumer that is due. -/
def State.settleExpiry (s : State) (e : Fin 12) : State :=
  if s.expiryDue e 0 then s.firstExpiry e else if s.expiryDue e 1 then s.secondExpiry e else s

/-- Everything that the boundary before left due is taken, in a fixed order. -/
def State.settleDue (s : State) : State :=
  let s1 := (List.finRange 24).foldl State.slotAgeStep s
  let s2 := (List.finRange 13).foldl State.declAgeStep s1
  let s3 := (List.finRange 12).foldl State.settleExpiry s2
  let s4 := s3.expireRecommission.expireClearStore.takeTick
  s4.endWindows.takeFrameCompletion.takeCheckpoint

/-! ### TICK_BOUNDARY (R175) -/

/-- The milliseconds that complete the second pass (assumption 3). -/
def State.completeSecond (s : State) : State :=
  let s1 := s.passMs (1000 - s.clock.phase)
  { s1 with clock := { s1.clock with phase := 0 } }

/-- The raise to a label enters a new current interval: the label is a settlement interval boundary, or station time passes
one on its way from where departure left it (R181, R188). -/
def State.entersInterval (s : State) (label : Nat) : Bool :=
  (label + s.img.dayOffset) % s.img.intervalLength == 0 || intervalOf s.img label != s.currentInterval

/-- Every block that follows the tick timer sees the boundary (R32, R63, R100, R175, R181, R19, R20). A boundary
of intervals or contracts that the raise passes over is not taken (assumption 63). -/
def State.ageAll (s : State) : State :=
  let label := s.clock.domain
  { s with
    clock := { s.clock with
      time := label
      adjustments := if s.entersInterval label then noAdjustments else s.clock.adjustments }
    fiscal := { s.fiscal with tick := some label }
    sensor := { s.sensor with slots := s.sensor.slots.mapFin fun i sl => sl.atBoundary (s.img.maxAge i) }
    decls := s.decls.map Declaration.atBoundary
    alloc := { s.alloc with consumers := s.alloc.consumers.map Consumer.atBoundary }
    station := { s.station with
      recommission := s.station.recommission.atBoundary, clearStore := s.station.clearStore.atBoundary } }

/-- A boundary in STARTING: the first one after restoration with a Valid backup fixes the resume point (R186, R188). -/
def State.startingBoundary (s : State) : State :=
  match s.startup with
  | none => s
  | some r =>
    if r.toBlank then (if s.clock.valid then s.raiseDomain else s)
    else
      let s1 := s.raiseDomain
      if r.resume.isNone then s1.fixResume s1.clock.domain else s1

/-- TICK_BOUNDARY (R175). With the main supply absent the backup domain's timer goes on while its validity holds (R177). -/
def execTickBoundary (s : State) : Out :=
  .next (if !s.board.mainOn then (if s.clock.valid then s.completeSecond.raiseDomain else s)
    else match s.station.state with
      | .blank => s.completeSecond
      | .starting => s.completeSecond.startingBoundary
      | .operating => s.settleDue.completeSecond.raiseDomain.ageAll
      | .reconfiguring => s.settleDue.completeSecond.raiseDomain.ageAll)

end Sys2Proof.Machine
end

