-- ==== Sys2Proof/Machine/Dispatch.lean ====
section
/-! DEFINITION. The meaning of every command: one arm per constructor, one direct call each. -/

namespace Sys2Proof.Machine

def exec (i : Instr) (s : State) : Host.Outcome State Fault Refusal :=
  match i with
  | .fetch p len chk clocked => Sys2Proof.Machine.execFetch p len chk clocked s
  | .takeNotice p => Sys2Proof.Machine.execTakeNotice p s
  | .setFilter p filter => Sys2Proof.Machine.execSetFilter p filter s
  | .readPort p => Sys2Proof.Machine.execReadPort p s
  | .writeConfig p item index value => Sys2Proof.Machine.execWriteConfig p item index value s
  | .readConfig p image item index => Sys2Proof.Machine.execReadConfig p image item index s
  | .readStation p => Sys2Proof.Machine.execReadStation p s
  | .approve p word => Sys2Proof.Machine.execApprove p word s
  | .recommission p => Sys2Proof.Machine.execRecommission p s
  | .recommissionWindowExpiry => Sys2Proof.Machine.execRecommissionWindowExpiry s
  | .clearStore p => Sys2Proof.Machine.execClearStore p s
  | .clearStoreWindowExpiry => Sys2Proof.Machine.execClearStoreWindowExpiry s
  | .readSlot p slot => Sys2Proof.Machine.execReadSlot p slot s
  | .readStream p stream => Sys2Proof.Machine.execReadStream p stream s
  | .declare p declaration value lifetime => Sys2Proof.Machine.execDeclare p declaration value lifetime s
  | .readDeclaration p declaration => Sys2Proof.Machine.execReadDeclaration p declaration s
  | .setFlag p flag => Sys2Proof.Machine.execSetFlag p flag s
  | .clearFlag p flag => Sys2Proof.Machine.execClearFlag p flag s
  | .readFlags p => Sys2Proof.Machine.execReadFlags p s
  | .readFrame p part => Sys2Proof.Machine.execReadFrame p part s
  | .confirmGrant p entry id => Sys2Proof.Machine.execConfirmGrant p entry id s
  | .refuseGrant p entry id acceptable => Sys2Proof.Machine.execRefuseGrant p entry id acceptable s
  | .reportTrip p entry => Sys2Proof.Machine.execReportTrip p entry s
  | .reportReady p entry firing => Sys2Proof.Machine.execReportReady p entry firing s
  | .park p entry => Sys2Proof.Machine.execPark p entry s
  | .unpark p entry => Sys2Proof.Machine.execUnpark p entry s
  | .setLimits p entry minimum maximum ramp threshold => Sys2Proof.Machine.execSetLimits p entry minimum maximum ramp threshold s
  | .readConsumer p entry => Sys2Proof.Machine.execReadConsumer p entry s
  | .nominate p interval kwh => Sys2Proof.Machine.execNominate p interval kwh s
  | .cancelNomination p interval => Sys2Proof.Machine.execCancelNomination p interval s
  | .readInterval p => Sys2Proof.Machine.execReadInterval p s
  | .stageTariff p contract effective bands percentage => Sys2Proof.Machine.execStageTariff p contract effective bands percentage s
  | .consentTariff p contract identity => Sys2Proof.Machine.execConsentTariff p contract identity s
  | .withdrawTariff p contract => Sys2Proof.Machine.execWithdrawTariff p contract s
  | .readTariff p contract which => Sys2Proof.Machine.execReadTariff p contract which s
  | .readAccount p contract which part => Sys2Proof.Machine.execReadAccount p contract which part s
  | .readRecord p sector unit part => Sys2Proof.Machine.execReadRecord p sector unit part s
  | .releaseRecord p sector unit => Sys2Proof.Machine.execReleaseRecord p sector unit s
  | .readStore p part => Sys2Proof.Machine.execReadStore p part s
  | .readTime p => Sys2Proof.Machine.execReadTime p s
  | .adjustTime p step => Sys2Proof.Machine.execAdjustTime p step s
  | .badFrame p fault => Sys2Proof.Machine.execBadFrame p fault s
  | .incompleteFrame p => Sys2Proof.Machine.execIncompleteFrame p s
  | .characterReceived data parity stopAtMark => Sys2Proof.Machine.execCharacterReceived data parity stopAtMark s
  | .linkBreak => Sys2Proof.Machine.execLinkBreak s
  | .readingApplied => Sys2Proof.Machine.execReadingApplied s
  | .pulseEdge pin ms => Sys2Proof.Machine.execPulseEdge pin ms s
  | .pulseFall pin ms => Sys2Proof.Machine.execPulseFall pin ms s
  | .pulseQualified pin ms => Sys2Proof.Machine.execPulseQualified pin ms s
  | .tickBoundary => Sys2Proof.Machine.execTickBoundary s
  | .slotAgeExpiry slot => Sys2Proof.Machine.execSlotAgeExpiry slot s
  | .declarationStale declaration => Sys2Proof.Machine.execDeclarationStale declaration s
  | .declarationFallback declaration => Sys2Proof.Machine.execDeclarationFallback declaration s
  | .firstExpiry entry => Sys2Proof.Machine.execFirstExpiry entry s
  | .secondExpiry entry => Sys2Proof.Machine.execSecondExpiry entry s
  | .tickIntegration => Sys2Proof.Machine.execTickIntegration s
  | .checkWindowEnd stream => Sys2Proof.Machine.execCheckWindowEnd stream s
  | .frameCompletion => Sys2Proof.Machine.execFrameCompletion s
  | .periodicCheckpoint => Sys2Proof.Machine.execPeriodicCheckpoint s
  | .arrayServe => Sys2Proof.Machine.execArrayServe s
  | .recordProgramDone => Sys2Proof.Machine.execRecordProgramDone s
  | .recordUnitFail unit left tag => Sys2Proof.Machine.execRecordUnitFail unit left tag s
  | .markProgramDone mark => Sys2Proof.Machine.execMarkProgramDone mark s
  | .recordReadDone => Sys2Proof.Machine.execRecordReadDone s
  | .sectorEraseDone left => Sys2Proof.Machine.execSectorEraseDone left s
  | .configProgramDone failed => Sys2Proof.Machine.execConfigProgramDone failed s
  | .checkpointProgramDone failed => Sys2Proof.Machine.execCheckpointProgramDone failed s
  | .pfw torn => Sys2Proof.Machine.execPfw torn s
  | .resetAssert => Sys2Proof.Machine.execResetAssert s
  | .resetRelease heldMicroseconds torn => Sys2Proof.Machine.execResetRelease heldMicroseconds torn s
  | .powerReturn => Sys2Proof.Machine.execPowerReturn s
  | .mainSupplyLoss torn => Sys2Proof.Machine.execMainSupplyLoss torn s
  | .backupSupplyFail => Sys2Proof.Machine.execBackupSupplyFail s
  | .departure => Sys2Proof.Machine.execDeparture s
  | .lineReturnsToMark => Sys2Proof.Machine.execLineReturnsToMark s

end Sys2Proof.Machine
end

