-- ==== Sys2Proof/Safety.lean ====
section
/-! DEFINITION. The terms in which statements about the machine are made: who sends a command, when a port takes it, the
state an answered request leaves, and what stays true of a good state. -/

namespace Sys2Proof.Machine

/-! ### Commands and their senders -/

/-- The party and request of a command that is a well-formed request frame; `none` for FETCH, for a bad or incomplete
frame, and for every event. -/
def requestSent : Instr → Option (Party × Request)
  | .takeNotice p => some (p, .takeNotice)
  | .setFilter p _ => some (p, .setFilter)
  | .readPort p => some (p, .readPort)
  | .writeConfig p _ _ _ => some (p, .writeConfig)
  | .readConfig p _ _ _ => some (p, .readConfig)
  | .readStation p => some (p, .readStation)
  | .approve p _ => some (p, .approve)
  | .recommission p => some (p, .recommission)
  | .clearStore p => some (p, .clearStore)
  | .readSlot p _ => some (p, .readSlot)
  | .readStream p _ => some (p, .readStream)
  | .declare p _ _ _ => some (p, .declare)
  | .readDeclaration p _ => some (p, .readDeclaration)
  | .setFlag p _ => some (p, .setFlag)
  | .clearFlag p _ => some (p, .clearFlag)
  | .readFlags p => some (p, .readFlags)
  | .readFrame p _ => some (p, .readFrame)
  | .confirmGrant p _ _ => some (p, .confirmGrant)
  | .refuseGrant p _ _ _ => some (p, .refuseGrant)
  | .reportTrip p _ => some (p, .reportTrip)
  | .reportReady p _ _ => some (p, .reportReady)
  | .park p _ => some (p, .park)
  | .unpark p _ => some (p, .unpark)
  | .setLimits p _ _ _ _ _ => some (p, .setLimits)
  | .readConsumer p _ => some (p, .readConsumer)
  | .nominate p _ _ => some (p, .nominate)
  | .cancelNomination p _ => some (p, .cancelNomination)
  | .readInterval p => some (p, .readInterval)
  | .stageTariff p _ _ _ _ => some (p, .stageTariff)
  | .consentTariff p _ _ => some (p, .consentTariff)
  | .withdrawTariff p _ => some (p, .withdrawTariff)
  | .readTariff p _ _ => some (p, .readTariff)
  | .readAccount p _ _ _ => some (p, .readAccount)
  | .readRecord p _ _ _ => some (p, .readRecord)
  | .releaseRecord p _ _ => some (p, .releaseRecord)
  | .readStore p _ => some (p, .readStore)
  | .readTime p => some (p, .readTime)
  | .adjustTime p _ => some (p, .adjustTime)
  | .fetch .. => none
  | .recommissionWindowExpiry => none
  | .clearStoreWindowExpiry => none
  | .badFrame .. => none
  | .incompleteFrame _ => none
  | .characterReceived .. => none
  | .linkBreak => none
  | .readingApplied => none
  | .pulseEdge .. => none
  | .pulseFall .. => none
  | .pulseQualified .. => none
  | .tickBoundary => none
  | .slotAgeExpiry _ => none
  | .declarationStale _ => none
  | .declarationFallback _ => none
  | .firstExpiry _ => none
  | .secondExpiry _ => none
  | .tickIntegration => none
  | .checkWindowEnd _ => none
  | .frameCompletion => none
  | .periodicCheckpoint => none
  | .arrayServe => none
  | .recordProgramDone => none
  | .recordUnitFail .. => none
  | .markProgramDone _ => none
  | .recordReadDone => none
  | .sectorEraseDone _ => none
  | .configProgramDone _ => none
  | .checkpointProgramDone _ => none
  | .pfw _ => none
  | .resetAssert => none
  | .resetRelease .. => none
  | .powerReturn => none
  | .mainSupplyLoss _ => none
  | .backupSupplyFail => none
  | .departure => none
  | .lineReturnsToMark => none

/-- The ports respond, and the party's slot is IDLE or READY: its next frame is taken (R191). -/
def Hears (s : State) (p : Party) : Prop := s.portsRespond = true ∧ (s.port p).slot ≠ .working

/-- The station is OPERATING or RECONFIGURING, and the party's next frame is taken. -/
def Serves (s : State) (p : Party) : Prop := s.settled = true ∧ Hears s p

/-- The state in which the party's slot is READY with a result and data, and nothing else has changed: the response
carries the dropped mark, and the mark is cleared (R191). The port clocked out FFh. -/
def answered (s : State) (p : Party) (r : Result) (data : List Byte) : State :=
  let pt := s.port p
  { s with ports := s.ports.set (partyIndex p)
            { pt with slot := .ready ⟨pt.dropped, r, data⟩, dropped := false, dataOut := [] } }

/-- The state in which the party's slot is WORKING: its request waits for the store (R191). -/
def awaiting (s : State) (p : Party) : State :=
  { s with ports := s.ports.set (partyIndex p) { s.port p with slot := .working, dataOut := [] } }

/-- The entry is operated by the party (R5). -/
def Operates (s : State) (p : Party) (e : Fin 12) : Prop := s.img.operator e = some p

/-! ### The consistency conditions -/

/-- The image names the RECORD contract for a stream (R4). -/
def NamesRecord (img : Image) (i : Fin 8) : Prop := ∃ c, img.streamContract i = some c ∧ img.isRecord c = true

/-- The image meets condition `n` of R14, counted from 1 as R14 counts them; there are twelve. -/
def Image.Meets (img : Image) : Nat → Prop
  | 1 => ∀ i, img.present i = true →
      (∀ j, img.present j = true → j ≠ i → img.mainInput i ≠ img.mainInput j ∧ img.checkInput j ≠ some (img.mainInput i)) ∧
      img.checkInput i ≠ some (img.mainInput i) ∧ (img.streamKind i = .power → img.checkInput i = none)
  | 2 => ∀ i,
      let weight (top : Nat) : Prop := 1 ≤ img.pulseWeight i ∧ img.pulseWeight i ≤ top
      match img.streamKind i with
      | .gas => weight 100000 ∧ img.slotKind (img.slotA i) = .press ∧ img.slotKind (img.slotB i) = .temp ∧
          img.slotKind (img.slotC i) = .cv
      | .heat => weight 1000 ∧ img.slotKind (img.slotA i) = .temp ∧ img.slotKind (img.slotB i) = .temp
      | .power => weight 10000
      | .absent => True
  | 3 => ∀ i, img.supplyMark i = true → img.streamKind i = .gas
  | 4 => (∃ c, img.isRecord c = true ∧ ∀ d, img.isRecord d = true → d = c) ∧
      (∀ i j, img.streamKind i = .power → img.streamKind j = .power → i = j) ∧
      ∀ i, NamesRecord img i ↔ img.streamKind i = .power
  | 5 => ∀ c, ((List.finRange 8).filter fun i => img.present i && img.streamContract i == some c).length ≤ 2 ∧
      (img.isRecord c = true → img.periodDays c = 1) ∧ img.seller c ≠ img.buyer c
  | 6 => ∀ c, img.isRecord c = false → ∀ m, m < 1440 → ∃ b ∈ img.bands c, bandContains b m = true
  | 7 => ∀ i, (img.slotKind i).good (img.fixedValue i) = true
  | 8 => ∀ i, img.recoveredHeat = some i → img.streamKind i = .heat
  | 9 => img.slotKind img.levelSlot = .level ∧ img.slotKind img.cvSlot = .cv
  | 10 => img.holderLL < img.holderLo ∧ img.holderLo < img.holderHi ∧ img.holderHi < img.holderHH ∧
      img.hysteresis < img.holderLo - img.holderLL ∧ img.hysteresis < img.holderHi - img.holderLo ∧
      img.hysteresis < img.holderHH - img.holderHi ∧ img.holderLL ≤ img.holderTarget ∧ img.holderTarget ≤ img.holderHH
  | 11 => ∀ e, img.operator e ≠ none →
      let l := img.limits e
      img.hardMin e ≤ l.minimum ∧ l.minimum ≤ l.maximum ∧ l.maximum ≤ img.hardMax e ∧ l.ramp ≤ img.hardMax e ∧
      l.threshold ≤ img.hardMax e ∧ img.fallback (Fin.castSucc e) ≤ l.maximum
  | 12 => ∀ e a, img.operator e ≠ none → img.alternate e = some a → a ≠ e ∧ img.operator a ≠ none
  | _ => True

/-! ### Nothing due -/

/-- No event of the last second boundary is still to be taken, and no frame or checkpoint is due. -/
def NothingDue (s : State) : Prop :=
  (∀ i, (s.sensor.slots.get i).ageDue = false) ∧ (∀ d, (s.decls.get d).ageDue = false) ∧
  (∀ e, (s.consumer e).state = .changing → (s.consumer e).timer ≠ 0) ∧
  s.station.recommission.left ≠ some 0 ∧ s.station.clearStore.left ≠ some 0 ∧
  s.fiscal.tick = none ∧ (∀ i, (s.pulses.windows.get i).ticks < 60) ∧ s.alloc.frameDue = none ∧
  s.clock.ckptTicks < checkpointTicks

/-! ### What stays true -/

/-- A notice queue holds at most 32 notices; it holds 32 exactly while the dropping mark is set, and its tail is then a
QUEUE FULL (R196). -/
def Port.Wf (pt : Port) : Prop :=
  pt.queue.length ≤ 32 ∧ (pt.dropping = true ↔ pt.queue.length = 32) ∧
  (pt.dropping = true → ∃ n, pt.queue.getLast? = some n ∧ n.kind = .queueFull)

/-- Every port. -/
def PortsWf (s : State) : Prop := ∀ p, (s.port p).Wf

/-- A consumer has a grant awaiting confirmation exactly while it is CHANGING, and a running timer and a retry count only
then (R96, R97). -/
def Consumer.Wf (c : Consumer) : Prop :=
  (c.pending.isSome = true ↔ c.state = .changing) ∧ c.retry ≤ 1 ∧ (c.state ≠ .changing → c.timer = 0 ∧ c.retry = 0)

/-- Every consumer. -/
def ConsumersWf (s : State) : Prop := ∀ e, (s.consumer e).Wf

/-- The confirmed grant that each state of R97 allows: 0 in OUT, READY and TRIPPED, above 0 in RUNNING. -/
def Consumer.Settled (c : Consumer) : Prop :=
  (c.state = .out ∨ c.state = .ready ∨ c.state = .tripped → c.confirmed = 0) ∧ (c.state = .running → c.confirmed ≠ 0)

/-- A checkpoint that a later restart may restore: held in a checkpoint sector, waiting in the array queue, or being
programmed. -/
def Store.Holds (st : Store) (c : Checkpoint) : Prop :=
  (∃ i warned, (st.ckpts.get i).content = .good c warned) ∨ .checkpoint c ∈ st.queue ∨
  ∃ n, st.current = some (.checkpoint c n)

/-- An absent entry is OUT, and every consumer's confirmed grant suits its state, in the records and in the checkpoints
(R97, R115). -/
def GrantsWf (s : State) : Prop :=
  (∀ e, s.img.operator e = none → (s.consumer e).state = .out) ∧ (∀ e, (s.consumer e).Settled) ∧ ∀ c, s.store.Holds c → ∀ e, (c.consumers.get e).Settled

/-- Totals and residuals stay below 10⁹, in the stream table and in the checkpoints (R47). -/
def FiguresWf (s : State) : Prop :=
  (∀ i, (s.fiscal.streams.get i).total < 1000000000 ∧ (s.fiscal.streams.get i).residual < 1000000000) ∧
  ∀ c, s.store.Holds c → ∀ i, (c.streams.get i).total < 1000000000 ∧ (c.streams.get i).residual < 1000000000

/-- The nomination queue rises strictly and lies within the eight intervals after the running one (R118). -/
def Tracker.Wf (t : Tracker) : Prop :=
  t.queue.Pairwise (fun a b => a.interval < b.interval) ∧
  ∀ x ∈ t.queue, t.running < x.interval ∧ x.interval ≤ t.running + 8

/-- The same of the tracker and of the checkpoints. -/
def NominationsWf (s : State) : Prop := s.tracker.Wf ∧ ∀ c, s.store.Holds c → c.tracker.Wf

/-- A restart is under way exactly in STARTING, and a commit only in BLANK and RECONFIGURING (R6, R16). -/
def StationWf (s : State) : Prop :=
  (s.startup.isSome = true ↔ s.station.state = .starting) ∧
  (s.station.commit.isSome = true → s.station.state = .blank ∨ s.station.state = .reconfiguring)

/-- The grant that stands for a consumer: the pending one in CHANGING, the confirmed one otherwise (R9, R79, R91). -/
def Consumer.inForce (c : Consumer) : Nat := if c.state = .changing then c.pending.getD 0 else c.confirmed

/-- The sum of the grants in force. -/
def State.inForceSum (s : State) : Nat := (s.alloc.consumers.entries.map Consumer.inForce).sum

/-- The reading queue holds at most 16 records (R26), and a FRESH slot holds a last good value with its time (R30). -/
def SensorWf (s : State) : Prop :=
  s.sensor.queue.length ≤ 16 ∧
  ∀ i, (s.sensor.slots.get i).state = .fresh →
    (s.sensor.slots.get i).lastGood.isSome = true ∧ (s.sensor.slots.get i).goodAt.isSome = true

/-- The array is held in its canonical form. -/
def ArrayWf (s : State) : Prop := Cells.wf s.store.cells = true

/-- The moves between station states that R6 allows, each with the kind of command that makes it. The commit of a third
approval ends with the erase of the other configuration sector, or with the integration of the tick then in progress. -/
def StationMove (c : Instr) (x y : StationState) : Prop :=
  x = y ∨
  (y = .starting ∧ (c = .powerReturn ∨ ∃ n t, c = .resetRelease n t)) ∨
  (x = .starting ∧ (y = .operating ∨ y = .blank) ∧ c = .departure) ∨
  (x = .operating ∧ y = .reconfiguring ∧ ∃ p, c = .recommission p) ∨
  ((x = .blank ∨ x = .reconfiguring) ∧ y = .operating ∧
    (c = .tickIntegration ∨ c = .tickBoundary ∨ ∃ left, c = .sectorEraseDone left))

end Sys2Proof.Machine
end

