-- ==== Sys2Proof/Certificates/Slice0/Obligations.lean ====
section
/-! DEFINITION. The statements for the provers, from the numbered rules of the spec. `answered s p r data` is the state `s`
with party `p`'s slot READY holding result `r` and `data` and nothing else changed; so an equation with it states the whole
next state. `Hears` and `Serves` are conditions on the port and the station alone. -/

open Sys2Proof Sys2Proof.Machine

/-! ### The queue of commands -/

/-- One step runs the command at the front of the queue on the queue's rest.
The queue is the model's own field; what an empty one does is assumption 3. -/
def Obligations.StepRunsFrontCommand : Prop :=
  ∀ (c : Instr) (rest : List Instr) (s : State), s.pending = c :: rest → step s = exec c { s with pending := rest }

/-! ### Party ports -/

/-- R191: a complete request frame that finds the slot WORKING is dropped unjudged, and the dropped mark is set. R190, step 3: in
STARTING every request, and in BLANK every request that R7 does not name, is refused STATE and changes nothing. R190: a bad
frame completes FRAME, UNKNOWN, STATE or RANGE by the first step that applies, and changes nothing else; an incomplete frame
leaves only FFh on the data out line (R189).
That a frame arrives as typed operands, and a bad one as BAD_FRAME, is the model's choice (assumption 7). -/
def Obligations.RequestsJudgedBySlotAndState : Prop :=
  (∀ (c : Instr) (p : Party) (s : State), s.portsRespond = true → (s.port p).slot = .working →
     ((∃ r, requestSent c = some (p, r)) ∨ ∃ fault, c = .badFrame p fault) →
     exec c s = .next (s.mapPort p fun pt => { pt with dropped := true, dataOut := [] })) ∧
  (∀ (c : Instr) (p : Party) (r : Request) (s : State), requestSent c = some (p, r) → Hears s p →
     (s.station.state = .starting ∨
       s.station.state = .blank ∧ r ≠ .writeConfig ∧ r ≠ .readConfig ∧ r ≠ .readStation ∧ r ≠ .approve) →
     exec c s = .next (answered s p .state [])) ∧
  (∀ (p : Party) (fault : FrameFault) (s : State),
     (Hears s p → exec (.badFrame p fault) s = .next (answered s p
       (match fault with
         | .badCheck => .frame
         | .overlong => .frame
         | .unknownCode => .unknown
         | .wrongLength r => if s.stateRefuses r then .state else .range) [])) ∧
     (s.portsRespond = true →
       exec (.incompleteFrame p) s = .next (s.mapPort p fun pt => { pt with dataOut := [] })))

/-- R192: what a FETCH clocks out, by the slot at its judgement, and FFh after it; the slot and everything else stay. -/
def Obligations.FetchShowsTheSlot : Prop :=
  ∀ (p : Party) (n : Nat) (s : State), s.portsRespond = true →
    let frame : List Byte := match (s.port p).slot with
      | .idle => [0x0A#8, 0x00#8, crc8 [0x0A#8, 0x00#8]]
      | .working => [0x0B#8, 0x00#8, crc8 [0x0B#8, 0x00#8]]
      | .ready r =>
        let body := BitVec.ofNat 8 ((if r.dropped then 128 else 0) + r.result.code) ::
          BitVec.ofNat 8 r.data.length :: r.data
        body ++ [crc8 body]
    exec (.fetch p 0#8 0#8 n) s =
      .next (s.mapPort p fun pt => { pt with dataOut := (frame ++ List.replicate n 0xFF#8).take n })

/-- R197: TAKE NOTICE takes the head, clears the dropping mark, and arms the half mark below 8; an empty queue answers a count of
0. R195: SET FILTER replaces the filter with a value whose bits 0 and 24 to 31 are clear, and refuses any other RANGE. -/
def Obligations.NoticesTakenAndFiltersSet : Prop :=
  (∀ (p : Party) (s : State), Serves s p →
     ((s.port p).queue = [] → exec (.takeNotice p) s = .next (answered s p .ok [0x00#8])) ∧
     ∀ n rest, (s.port p).queue = n :: rest →
       exec (.takeNotice p) s = .next (answered
         (s.mapPort p fun pt =>
           { pt with queue := rest, dropping := false, halfArmed := pt.halfArmed || decide (rest.length < 8) })
         p .ok (be 1 rest.length ++ n.bytes))) ∧
  (∀ (p : Party) (f : Nat) (s : State), Serves s p →
     exec (.setFilter p f) s =
       if f ≤ 0xFFFFFE ∧ f % 2 = 0 then
         .next (answered (s.mapPort p fun pt => { pt with filter := BitVec.ofNat 32 f }) p .ok (be 4 f))
       else .next (answered s p .range []))

/-- R194 and R195: a notice of a filterable kind, kinds 1 to 23, whose filter bit is clear is discarded; any other is offered to
the queue. R196: what an offered notice does to a queue that keeps R196's form: it joins, or joins with QUEUE HALF behind it, which
disarms the half mark, or is replaced by QUEUE FULL, or raises the count of the QUEUE FULL at the tail; the half mark stays as it
was otherwise, and the form is kept. Slot, dropped mark and filter stay. R193: ATTN is asserted exactly while the queue holds a
notice or the slot is READY. -/
def Obligations.NoticeQueueTakesAnArrival : Prop :=
  ∀ (pt : Port) (n : Notice), pt.Wf →
    (pt.attn = true ↔ pt.queue ≠ [] ∨ ∃ r, pt.slot = .ready r) ∧
    pt.arrive n = (if n.kind.code ≤ 23 ∧ pt.filter.getLsbD n.kind.code = false then pt else pt.offer n) ∧
    (pt.offer n).Wf ∧ (pt.offer n).slot = pt.slot ∧ (pt.offer n).dropped = pt.dropped ∧ (pt.offer n).filter = pt.filter ∧
    (pt.dropping = true → (pt.offer n).queue.length = 32 ∧
      (pt.offer n).queue.dropLast = pt.queue.dropLast ∧
      ((pt.offer n).queue.getLast? = pt.queue.getLast?.map fun x =>
        if x.value = 0xFFFFFFFF#32 then x else { x with value := x.value + 1 }) ∧
      (pt.offer n).halfArmed = pt.halfArmed) ∧
    (pt.dropping = false → pt.queue.length ≤ 30 →
      (pt.offer n).queue = pt.queue ++ (if pt.queue.length = 15 ∧ pt.halfArmed = true
        then [n, ⟨.queueHalf, 0, n.time, 16#32, n.suspect, 0, 0⟩] else [n]) ∧ (pt.offer n).dropping = false ∧
      (pt.offer n).halfArmed = (if pt.queue.length = 15 then false else pt.halfArmed)) ∧
    (pt.dropping = false → pt.queue.length = 31 →
      (pt.offer n).queue = pt.queue ++ [⟨.queueFull, 0, n.time, 1#32, n.suspect, 0, 0⟩] ∧
      (pt.offer n).dropping = true ∧ (pt.offer n).halfArmed = pt.halfArmed)

/-- A request of one party leaves every other party's slot, dropped mark, filter and data out line alone. It takes no notice from
any other party's queue and changes none that waits there: the queue as it was is the beginning of the queue after it, but for
the tail, a QUEUE FULL, while the dropping mark is set (R194, R196, R197). -/
def Obligations.RequestsLeaveOtherPortsAlone : Prop :=
  ∀ (c : Instr) (p q : Party) (r : Request) (s t : State), requestSent c = some (p, r) → q ≠ p → exec c s = .next t →
    (t.port q).slot = (s.port q).slot ∧ (t.port q).dropped = (s.port q).dropped ∧
    (t.port q).filter = (s.port q).filter ∧ (t.port q).dataOut = (s.port q).dataOut ∧
    (s.port q).queue.length ≤ (t.port q).queue.length ∧ (s.port q).queue.dropLast <+: (t.port q).queue ∧
    ((s.port q).dropping = false → (s.port q).queue <+: (t.port q).queue)

/-! ### Reading requests -/

/-- The fourteen reading requests complete OK with their data and change nothing else: READ PORT, READ FLAGS, READ INTERVAL, READ
TIME and READ STATION (R198, R70, R130, R179, R12); READ SLOT, READ STREAM, READ DECLARATION, READ CONSUMER, READ FRAME and READ
STORE of the thing named, RANGE above the last one (R34, R57, R65, R114, R94, R166); READ CONFIG, READ TARIFF and READ ACCOUNT
under the conditions of R12, R136 and R140.
The widths and order of the data's fields, where the spec gives none, are the model's choice (assumption 8). -/
def Obligations.ReadsComplete : Prop :=
  (∀ (p : Party) (s : State),
     (Serves s p →
       exec (.readPort p) s = .next (answered s p .ok (portData p s)) ∧
       exec (.readFlags p) s = .next (answered s p .ok (flagsData s)) ∧
       exec (.readInterval p) s = .next (answered s p .ok (intervalData s)) ∧
       exec (.readTime p) s = .next (answered s p .ok (timeData s))) ∧
     (Hears s p → s.station.state ≠ .starting →
       exec (.readStation p) s = .next (answered s p .ok (stationData s)))) ∧
  (∀ (p : Party) (n : Nat) (s : State), Serves s p →
     exec (.readSlot p n) s =
       (if h : n < 24 then .next (answered s p .ok (slotData s ⟨n, h⟩)) else .next (answered s p .range [])) ∧
     exec (.readStream p n) s =
       (if h : n < 8 then .next (answered s p .ok (streamData s ⟨n, h⟩)) else .next (answered s p .range [])) ∧
     exec (.readDeclaration p n) s =
       (if h : n < 13 then .next (answered s p .ok (declarationData s ⟨n, h⟩)) else .next (answered s p .range [])) ∧
     exec (.readConsumer p n) s =
       (if h : n < 12 then .next (answered s p .ok (consumerRecordData s ⟨n, h⟩)) else .next (answered s p .range [])) ∧
     exec (.readFrame p n) s =
       (if n ≤ 12 then .next (answered s p .ok (frameData s n)) else .next (answered s p .range [])) ∧
     exec (.readStore p n) s =
       (if n ≤ 7 then .next (answered s p .ok (storeData s.store n)) else .next (answered s p .range []))) ∧
  (∀ (p : Party) (s : State),
     (∀ image item index img it, Hears s p → s.station.state ≠ .starting →
       (image = 0 ∧ s.station.inForce.map Programmed.image = some img ∨ image = 1 ∧ s.station.edit = some img) →
       findItem item = some it → index < it.count →
       exec (.readConfig p image item index) s = .next (answered s p .ok (beInt 4 (img.get item index)))) ∧
     (∀ (c : Fin 4), Serves s p → (p = s.img.seller c ∨ p = s.img.buyer c) →
       (s.img.isRecord c = false →
         exec (.readTariff p c.val 0) s = .next (answered s p .ok (tariffData (s.contract c).tariff)) ∧
         exec (.readTariff p c.val 1) s = .next (answered s p .ok (stagedData (s.contract c).staged))) ∧
       ∀ part, part ≤ (if s.img.isRecord c then 10 else 2) →
         exec (.readAccount p c.val 0 part) s = .next (answered s p .ok (accountPart c (s.contract c).opened part)) ∧
         exec (.readAccount p c.val 1 part) s = .next (answered s p .ok
           (match (s.contract c).closing with
             | some a => accountPart c a part
             | none => [0x00#8]))))

/-! ### The exchange station -/

/-- R11: an accepted WRITE CONFIG puts the value into the edit image and clears every approval. It is refused STATE in STARTING and
OPERATING, while a commit or a store clear is in progress, and in RECONFIGURING for an item written in BLANK alone; and RANGE for an
item that the table lacks, an index past its last or a value outside its range. A refusal changes nothing.
That STATE goes before RANGE for such an item, and that a commit holds off edits in BLANK too (assumption 43), are the model's
readings. -/
def Obligations.WriteConfigPutsTheItem : Prop :=
  ∀ (p : Party) (item index : Nat) (value : Int) (s : State), Hears s p →
    let c : Instr := .writeConfig p item index value
    let refused (r : Result) : Prop := exec c s = .next (answered s p r [])
    (s.station.state = .starting ∨ s.station.state = .operating ∨ s.station.commit ≠ none ∨ s.store.clearing ≠ none →
      refused .state) ∧
    (s.station.state = .blank ∨ s.station.state = .reconfiguring → s.station.commit = none → s.store.clearing = none →
      (findItem item = none → refused .range) ∧
      ∀ it, findItem item = some it →
        let held := s.station.state = .reconfiguring ∧ it.reconf = false
        let taken := index < it.count ∧ it.values.allows value = true
        (held → refused .state) ∧ (¬held → ¬taken → refused .range) ∧
        (¬held → taken → exec c s = .next (answered
          { s with station := { s.station with
              edit := some (s.editImage.put item index value), approvals := Table.replicate 3 false } }
          p .ok [])))

/-- A value put into an image of 470 values reads back at its item and index, and every other item and index reads as
before (R10, R11, R12). -/
def Obligations.WrittenItemReadsBack : Prop :=
  ∀ (img : Image) (code code' index index' : Nat) (it it' : Item) (v : Int), img.values.length = 470 →
    findItem code = some it → index < it.count → findItem code' = some it' → index' < it'.count →
    (img.put code index v).get code' index' =
      (if code' = code ∧ index' = index then v else img.get code' index') ∧
    (img.put code index v).values.length = 470

/-- R15: an APPROVE with the edit image's check word, of a consistent image, sets the party's mark; the one that sets the third
begins the commit, and its slot stays WORKING. R16, step 1, and R167: the commit's target is the configuration sector without
the image in force, and from BLANK the one that the start-up read chose (R171); an erased target gets the configuration program at
once, any other is erased first. R10: its generation is 1 with no image in force, else one above that of the image in force. An APPROVE
is refused STATE in STARTING and OPERATING and while a commit or a store clear is in progress, MISMATCH for another check word, and
RANGE for an image that fails a condition of R14, with the number of the first it fails and the code and index of an item that this
condition relates; of a party whose mark is set it completes OK and changes nothing.
Which of those items is reported is a free value (assumption 22), and so is the generation after 4,294,967,294 (assumption 66); that
the word and the image are judged before a mark already set is assumption 52, absent entries in conditions 3 and 4 assumption 46, the
commit in BLANK assumption 43, the width of the condition's number assumption 8. -/
def Obligations.ApprovalsBeginTheCommit : Prop :=
  (∀ (p : Party) (s : State), Hears s p → (s.station.state = .blank ∨ s.station.state = .reconfiguring) →
     s.station.commit = none → s.store.clearing = none → s.editImage.inconsistency = none →
     s.station.approvals.get (partyIndex p) = false →
     let marked := { s with station := { s.station with approvals := s.station.approvals.set (partyIndex p) true } }
     exec (.approve p s.editImage.checkWord) s =
       if allParties.all fun q => q == p || s.station.approvals.get (partyIndex q) then .next (awaiting (marked.beginCommit p) p)
       else .next (answered marked p .ok [])) ∧
  (∀ (p : Party) (word : Nat) (s : State), Hears s p →
     let answer (word : Nat) (r : Result) (data : List Byte) : Prop :=
       exec (.approve p word) s = .next (answered s p r data)
     (s.station.state = .starting ∨ s.station.state = .operating ∨ s.station.commit ≠ none ∨ s.store.clearing ≠ none →
       answer word .state []) ∧
     (s.station.state = .blank ∨ s.station.state = .reconfiguring → s.station.commit = none → s.store.clearing = none →
       (word ≠ s.editImage.checkWord → answer word .mismatch []) ∧
       (∀ number broken, s.editImage.inconsistency = some (number, broken) →
         ∃ at_ ∈ broken, answer s.editImage.checkWord .range (be 1 number ++ be 1 at_.1 ++ be 1 at_.2)) ∧
       (s.editImage.inconsistency = none → s.station.approvals.get (partyIndex p) = true →
         answer s.editImage.checkWord .ok []))) ∧
  (∀ img : Image, (img.inconsistency = none ↔ ∀ n, img.Meets n) ∧
     ∀ number broken, img.inconsistency = some (number, broken) →
       1 ≤ number ∧ number ≤ 12 ∧ ¬img.Meets number ∧ ∀ n, n < number → img.Meets n) ∧
  (∀ s : State, (s.station.inForce = none → s.nextGeneration = 1) ∧ 1 ≤ s.nextGeneration ∧
     ∀ x, s.station.inForce = some x → (x.generation < 4294967294 → s.nextGeneration = x.generation + 1) ∧
       s.nextGeneration ≤ 4294967294) ∧
  (∀ (p : Party) (s : State), s.station.state = .blank ∨ s.station.state = .reconfiguring →
     let target := if s.station.state = .blank then s.store.blankTarget else if s.store.imageSector = some 0 then 1 else 0
     (s.beginCommit p).station.commit =
       some ⟨p, target, if sectorBlank s.store.cells target then .programming else .erasingTarget⟩ ∧
     (sectorBlank s.store.cells target = true → s.store.current = none →
       (s.beginCommit p).store =
         { s.store with queue := s.store.queue ++ [.config target s.nextGeneration s.editImage] }) ∧
     (sectorBlank s.store.cells target = false → target ∉ s.store.eraseList →
       (s.beginCommit p).store = { s.store with eraseList := s.store.eraseList ++ [target] }))

/-- R19: in OPERATING a RECOMMISSION sets the party's mark and opens the 600 s window; the third mark takes the station to
RECONFIGURING with the edit image a copy of the image in force and every mark clear. There the frame timer stops and the frame
sums return to 0 (R9, R73), and every open account takes the RECOMMISSION flag (R150). R19 and R20: a consent window that has run
out closes with its marks cleared.
That a completed frame not yet run is dropped is the model's choice (assumption 41). A window that has run out is due from its
boundary on (assumption 5). -/
def Obligations.RecommissionAndItsWindow : Prop :=
  (∀ (p : Party) (s : State), Hears s p → s.station.state = .operating →
     let w := s.station.recommission
     let marks := w.marks.set (partyIndex p) true
     if allParties.all fun q => marks.get (partyIndex q) then
       ∃ t, exec (.recommission p) s = .next (answered t p .ok []) ∧ t.station.state = .reconfiguring ∧
         t.station.edit = some s.img ∧ t.station.approvals = Table.replicate 3 false ∧
         t.station.recommission = ConsentWindow.closed ∧ t.clock = { s.clock with frameTimer := none } ∧
         (∀ i, (t.fiscal.streams.get i) = { s.fiscal.streams.get i with frameSum := 0 }) ∧
         (∀ c, (t.contract c) =
           { s.contract c with opened := { (s.contract c).opened with recommission := true } }) ∧
         t.alloc = { s.alloc with frameDue := none } ∧ t.store = s.store ∧ t.tracker = s.tracker ∧ t.sensor = s.sensor
     else
       exec (.recommission p) s = .next (answered
         { s with station := { s.station with recommission := ⟨marks, some (w.left.getD 600)⟩ } } p .ok [])) ∧
  (∀ s : State, s.blocksRun = true →
     (s.station.recommission.left = some 0 → exec .recommissionWindowExpiry s =
       .next { s with station := { s.station with recommission := ⟨Table.replicate 3 false, none⟩ } }) ∧
     (s.station.clearStore.left = some 0 → exec .clearStoreWindowExpiry s =
       .next { s with station := { s.station with clearStore := ⟨Table.replicate 3 false, none⟩ } }))

/-- R20: in RECONFIGURING a CLEAR STORE sets the party's mark and opens the 600 s window; the third begins the store clear,
which empties the index and lists every written sector. -/
def Obligations.ClearStoreMarksAndClears : Prop :=
  ∀ (p : Party) (s : State), Hears s p → s.station.state = .reconfiguring → s.station.commit = none →
    s.store.clearing = none →
    let w := s.station.clearStore
    let marks := w.marks.set (partyIndex p) true
    if allParties.all fun q => marks.get (partyIndex q) then
      ∃ t, exec (.clearStore p) s = .next (answered t p .ok []) ∧ t.station.clearStore = ConsentWindow.closed ∧
        t.station.state = .reconfiguring ∧ t.store.index = [] ∧
        t.store.clearing = (if s.store.written = [] then none else some s.store.written) ∧
        (∀ n ∈ s.store.written, n ∈ t.store.eraseList) ∧ t.billing = s.billing ∧ t.fiscal = s.fiscal ∧ t.clock = s.clock
    else
      exec (.clearStore p) s = .next (answered
        { s with station := { s.station with clearStore := ⟨marks, some (w.left.getD 600)⟩ } } p .ok [])

/-! ### Sensor link and slots -/

/-- R22: with the link UP, a valid start character begins a record. Its position 2 takes a slot number of 0 to 23, begins anew at a
start character, and ends the record at any other valid character; positions 3 to 6 take a valid character; a character with an
error at positions 2 to 6 is taken and spoils the record, one at position 7 ends it. A spoiled record begins anew at a valid start
character and is discarded at position 7. R23: the seventh character of an unspoiled record makes it good when it is the check of the
five before it, and discards it otherwise. R26: a good record joins the tail of a queue of fewer than 16; at a full queue it is
dropped, and where the overrun report mark is armed the mark is disarmed and LINK OVERRUN posted with the record's slot. R21: a
character is valid when its bits with the parity bit hold an even count of ones and its stop bit is at mark. -/
def Obligations.CharactersMakeReadings : Prop :=
  (∀ (c : Byte) (parity stop : Bool), charValid c parity stop = true ↔
    stop = true ∧ (((List.range 8).filter fun k => c.getLsbD k).length + if parity then 1 else 0) % 2 = 0) ∧
  ∀ (c : Byte) (parity stop : Bool) (s : State), s.inputsRun = true → s.sensor.linkUp = true →
    let valid := charValid c parity stop
    let run := exec (.characterReceived c parity stop) s
    let goes (a : Assembler) : Prop := run = .next { s with sensor := { s.sensor with assembler := a } }
    (s.sensor.assembler = .hunting →
      goes (if valid = true ∧ c = 0x7E#8 then .assembling 2 [] false else .hunting)) ∧
    (∀ k held spoiled, s.sensor.assembler = .assembling k held spoiled → 2 ≤ k → k ≤ 7 →
      (valid = false → goes (if k = 7 then .hunting else .assembling (k + 1) (held ++ [c]) true)) ∧
      (valid = true → k = 2 →
        goes (if c = 0x7E#8 then .assembling 2 [] false else if c.toNat ≤ 23 then .assembling 3 [c] false else .hunting)) ∧
      (valid = true → 3 ≤ k → spoiled = true →
        goes (if c = 0x7E#8 then .assembling 2 [] false
          else if k = 7 then .hunting else .assembling (k + 1) (held ++ [c]) true)) ∧
      (valid = true → 3 ≤ k → k ≤ 6 → spoiled = false → goes (.assembling (k + 1) (held ++ [c]) false))) ∧
    ∀ slot v2 v1 v0 status : Byte, s.sensor.assembler = .assembling 7 [slot, v2, v1, v0, status] false →
      slot.toNat < 24 → valid = true →
      let good := c = slot ^^^ v2 ^^^ v1 ^^^ v0 ^^^ status
      let q := s.sensor.queue
      (¬good → goes .hunting) ∧
      (good → q.length < 16 → run = .next { s with sensor := { s.sensor with
        assembler := .hunting
        queue := q ++
          [⟨Fin.ofNat 24 slot.toNat, (v2 ++ v1 ++ v0).toInt, status.getLsbD 0, status.getLsbD 1⟩] } }) ∧
      (good → 16 ≤ q.length → s.sensor.overrunArmed = false → goes .hunting) ∧
      (good → 16 ≤ q.length → s.sensor.overrunArmed = true → run = .next
        (({ s with sensor := { s.sensor with assembler := .hunting, overrunArmed := false } } : State).post allParties
          .linkOverrun slot.toNat 0))

/-- R24 and R25: a break takes the link DOWN, drops the record in assembly, sets F6 and posts LINK BREAK; the first valid
character restores it, clears F6 and posts LINK RESTORED with the seconds since the break, and reaches the assembler after that:
a start character begins a record. The line's return to mark ends the break.
That FLAG CHANGED goes before LINK BREAK and LINK RESTORED is the model's choice (assumption 9); the seconds that a backward
adjustment has made negative are a free value (assumption 48). -/
def Obligations.BreaksTakeTheLinkDown : Prop :=
  ∀ s : State,
    (s.inputsRun = true → s.sensor.breakStanding = false → s.sensor.linkUp = true →
      exec .linkBreak s = .next ((({ s with sensor := { s.sensor with
        assembler := .hunting, breakStanding := true, linkUp := false, breakAt := s.clock.time } } : State).askFlag
          6 true).post allParties .linkBreak 0 0)) ∧
    (s.inputsRun = true → s.sensor.breakStanding = false → s.sensor.linkUp = false →
      exec .linkBreak s = .next { s with sensor := { s.sensor with assembler := .hunting, breakStanding := true } }) ∧
    exec .lineReturnsToMark s = .next { s with sensor := { s.sensor with breakStanding := false } } ∧
    (∀ c parity, s.inputsRun = true → s.sensor.linkUp = false → s.sensor.assembler = .hunting →
      charValid c parity true = true →
      ∃ v : BitVec 32,
        (s.sensor.breakAt ≤ s.clock.time → s.clock.time - s.sensor.breakAt ≤ 4294967295 →
          v = BitVec.ofNat 32 (s.clock.time - s.sensor.breakAt)) ∧
        let u := (({ s with sensor := { s.sensor with linkUp := true } } : State).askFlag 6 false).post allParties
          .linkRestored 0 v
        exec (.characterReceived c parity true) s = .next { u with sensor := { u.sensor with
          assembler := if c = 0x7E#8 then .assembling 2 [] false else .hunting } })

/-- R67: asked for the value it has, a flag does nothing; asked for the other, it changes with its time and posts FLAG CHANGED to
all three parties with value 1 for SET and 0 for CLEAR. R68: SET FLAG and CLEAR FLAG of a party flag by its owner bring it to the
value asked; flags 4 to 7 and other parties are refused DENIED, and a number above 7 RANGE.
The width of the mark in the data is the model's choice (assumption 8). -/
def Obligations.FlagsChangeWhenAsked : Prop :=
  (∀ (f : Fin 8) (v : Bool) (s : State), s.settled = true →
     s.askFlag f v =
       if (s.alloc.flags.get f).set = v then s
       else { s with alloc := { s.alloc with flags := s.alloc.flags.set f ⟨v, some s.clock.time⟩ } }.deliver allParties
         ⟨.flagChanged, f.val, s.clock.time, if v then 1#32 else 0#32, s.clock.suspect, 0, 0⟩) ∧
  (∀ (p : Party) (n : Nat) (v : Bool) (s : State), Serves s p →
     let c : Instr := if v then .setFlag p n else .clearFlag p n
     (∀ f : Fin 8, f.val = n → n < 4 → p = s.img.flagOwner n →
       exec c s = .next (answered (s.askFlag f v) p .ok [if v then 0x01#8 else 0x00#8])) ∧
     (n < 4 → p ≠ s.img.flagOwner n → exec c s = .next (answered s p .denied [])) ∧
     (4 ≤ n → n < 8 → exec c s = .next (answered s p .denied [])) ∧
     (8 ≤ n → exec c s = .next (answered s p .range [])))

/-- R28: outside FRESH the value in use of a slot is given by its substitution rule. -/
def Obligations.SubstitutionRuleGivesTheValue : Prop :=
  ∀ (s : State) (i : Fin 24), (s.sensor.slots.get i).state ≠ .fresh →
    (s.img.fixedRule i = true → s.slotValue i = s.img.fixedValue i) ∧
    (s.img.fixedRule i = false →
      (∀ v, (s.sensor.slots.get i).lastGood = some v → s.slotValue i = v) ∧
      ((s.sensor.slots.get i).lastGood = none → s.slotValue i = s.img.fixedValue i))

/-- R29 to R31: the head of the reading queue is applied to its slot. A good reading makes the slot FRESH, with SLOT
RESTORED only from SUBSTITUTED; a fault record substitutes a slot that is not SUBSTITUTED, with SLOT SUBSTITUTED, and only
changes the cause of one that is. -/
def Obligations.ReadingsReachTheirSlots : Prop :=
  ∀ (r : Reading) (rest : List Reading) (s : State), s.blocksRun = true → s.fiscal.tick = none →
    s.sensor.queue = r :: rest →
    let sl := s.sensor.slots.get r.slot
    let put (x : Slot) : State := { s with sensor := { s.sensor with
      queue := rest, overrunArmed := s.sensor.overrunArmed || rest.isEmpty, slots := s.sensor.slots.set r.slot x } }
    let good := r.fault = false ∧ (s.img.slotKind r.slot).good r.value = true
    let fresh : Slot := { sl with
      state := .fresh, lastGood := some r.value, goodAt := some s.clock.time, age := 0, uncalibrated := r.uncalibrated
      cause := none }
    let cause : Cause := if r.fault then .fault else .range
    let held : Slot := { sl with state := .substituted, age := 0, uncalibrated := false, cause := some cause }
    (good → sl.state ≠ .substituted → exec .readingApplied s = .next (put fresh)) ∧
    (good → sl.state = .substituted → exec .readingApplied s =
      .next ((put fresh).post allParties .slotRestored r.slot.val (BitVec.ofInt 32 r.value))) ∧
    (¬good → sl.state = .substituted → exec .readingApplied s = .next (put { sl with cause := some cause })) ∧
    (¬good → sl.state ≠ .substituted → exec .readingApplied s =
      .next ((put held).post allParties .slotSubstituted r.slot.val
        (BitVec.ofInt 32 (if s.img.fixedRule r.slot then s.img.fixedValue r.slot
          else sl.lastGood.getD (s.img.fixedValue r.slot)))))

/-- R32: the expiry that a second boundary left due at a FRESH slot of maximum age substitutes it with cause AGE and posts
SLOT SUBSTITUTED; every other slot stays.
The due mark is the model's own (assumptions 5, 6 and 29). -/
def Obligations.SlotsExpireAtTheirMaximumAge : Prop :=
  ∀ (i : Fin 24) (s : State), s.blocksRun = true →
    let sl := s.sensor.slots.get i
    sl.ageDue = true → sl.state = .fresh → s.img.maxAge i ≤ sl.age →
    exec (.slotAgeExpiry i) s =
      .next (({ s with sensor := { s.sensor with slots := s.sensor.slots.set i { sl with
          state := .substituted, age := 0, uncalibrated := false, cause := some .age, ageDue := false } } } : State).post
        allParties .slotSubstituted i.val
        (BitVec.ofInt 32 (if s.img.fixedRule i then s.img.fixedValue i else sl.lastGood.getD (s.img.fixedValue i))))

/-! ### Pulse inputs -/

/-- R36: a rising edge is stamped with the millisecond counter and the width in force; it counts once, moving the stamps on, when
the input has stayed high for that width, and is dropped when it falls before. R37: the instantaneous flow is 0 without two
stamps, and from 60,000 ms after the latest one on; otherwise it is the weight times 3,600,000 over the interval between the
stamps, which wraps through 2³² and counts as at least 1. R38: at its 60th tick a comparison window is judged, DOUBTFUL when main
and check differ by more than the limit, with PULSE MISMATCH; the window returns to 0.
That a command carries the milliseconds that pass before it, and that edges and stamps carry the milliseconds since them up to
60,000, are the model's choices (assumptions 3 and 47). -/
def Obligations.PulsesAndCheckWindows : Prop :=
  (∀ (pin : Fin 8) (ms : Nat) (s : State), s.inputsRun = true →
     let t := s.passMs ms
     let old := s.pulses.inputs.get pin
     let x := t.pulses.inputs.get pin
     let put (y : PulseInput) : State := { t with pulses := { t.pulses with inputs := t.pulses.inputs.set pin y } }
     x.count = old.count ∧ x.latest = old.latest ∧ x.previous = old.previous ∧ x.since = min 60000 (old.since + ms) ∧
     (x.edge = old.edge.map fun (e : Edge) => { e with since := min 60000 (e.since + ms) }) ∧
     exec (.pulseEdge pin ms) s =
       .next (put { x with edge := some ⟨(s.clock.millis + ms) % 4294967296, s.img.minWidth pin, 0⟩ }) ∧
     ∀ e, x.edge = some e →
       let counted : PulseInput := ⟨x.count + 1, none, some e.stamp, x.latest, e.since⟩
       (e.width ≤ e.since →
         exec (.pulseQualified pin ms) s = .next (put counted) ∧ exec (.pulseFall pin ms) s = .next (put counted)) ∧
       (e.since < e.width → exec (.pulseQualified pin ms) s = .next t ∧
         exec (.pulseFall pin ms) s = .next (put { x with edge := none }))) ∧
  (∀ (x : PulseInput) (weight : Nat),
     (x.previous = none ∨ x.latest = none → instantaneousFlow x weight = 0) ∧
     ∀ a b, x.previous = some a → x.latest = some b → instantaneousFlow x weight =
       if 60000 ≤ x.since then 0 else weight * 3600000 / max 1 ((b + 4294967296 - a) % 4294967296)) ∧
  (∀ (i : Fin 8) (s : State), s.blocksRun = true → 60 ≤ (s.pulses.windows.get i).ticks →
     let w := s.pulses.windows.get i
     let bad : Bool := decide (((w.main : Int) - w.check).natAbs > s.img.mismatchLimit i)
     let t : State := { s with pulses := { s.pulses with windows := s.pulses.windows.set i ⟨0, 0, 0, bad⟩ } }
     exec (.checkWindowEnd i) s =
       .next (if bad then t.post allParties .pulseMismatch i.val (BitVec.ofInt 32 ((w.main : Int) - w.check)) else t))

/-! ### Fiscal integration -/

/-- R43 to R46: a HEAT increment is 0 below θ and V × k × ΔT from θ on, a GAS increment is one truncated division, a POWER
increment has none. R44: below 0 the heat coefficient is 11670, from 18000 on 10460, and between, i thousands and f above them, it is
k_i − floor((k_i − k_{i+1}) × f / 1000) of the table's values; so it lies between 10460 and 11670. What a tick's snapshot gives a
stream: V is the main tick count times the pulse weight, the figures are the values in use of the slots the kind uses, A the supply
and B the return of a HEAT stream, A the pressure, B the temperature and C the calorific value of a GAS stream. R49: the tick is
substituted when a slot so used is not FRESH or is uncalibrated, or the stream is DOUBTFUL; R50: a HEAT tick is reverse when the
supply is below the return; R51: degraded when its contract has a compliance temperature and the supply is below it. A POWER tick
takes no mark. -/
def Obligations.IncrementsOfTheKinds : Prop :=
  (∀ (v : Nat) (ts tr theta : Int), 0 ≤ theta →
    (ts - tr < theta → heatIncrement v ts tr theta = 0) ∧
    (theta ≤ ts - tr → (heatIncrement v ts tr theta : Int) = v * heatCoefficient ((ts + tr) / 2) * (ts - tr))) ∧
  (∀ tm : Int, 10460 ≤ heatCoefficient tm ∧ heatCoefficient tm ≤ 11670) ∧
  (∀ (v : Nat) (p t cv : Int), 0 ≤ p → 0 ≤ cv →
    let tabs := max 1000 (t + 27315)
    let e : Int := gasIncrement v p t cv
    e * (101325 * tabs) ≤ v * 1000 * p * 27315 * cv ∧ v * 1000 * p * 27315 * cv < (e + 1) * (101325 * tabs)) ∧
  (∀ v, powerIncrement v = v * 1000000) ∧
  (∀ tm : Int, (tm < 0 → heatCoefficient tm = 11670) ∧ (18000 ≤ tm → heatCoefficient tm = 10460) ∧
    ∀ i f a b : Nat, f < 1000 → tm = ((1000 * i + f : Nat) : Int) →
      let k := [11670, 11660, 11620, 11580, 11530, 11480, 11420, 11360, 11300, 11230, 11160, 11090, 11010, 10930, 10840,
        10750, 10660, 10560, 10460]
      k[i]? = some a → k[i + 1]? = some b → heatCoefficient tm = a - (a - b) * f / 1000) ∧
  (∀ (s : State) (i : Fin 8),
    let v := (s.pulses.inputs.get (s.img.mainInput i)).count * s.img.pulseWeight i
    let doubted (n : Fin 24) : Prop := (s.sensor.slots.get n).state ≠ .fresh ∨ (s.sensor.slots.get n).uncalibrated = true
    let doubtful := (s.pulses.windows.get i).doubtful = true
    let a := s.img.slotA i
    let b := s.img.slotB i
    let c := s.img.slotC i
    let o := s.tickOutcome i
    (s.img.streamKind i = .heat → o.increment = heatIncrement v (s.slotValue a) (s.slotValue b) (s.img.theta i) ∧
      (o.substituted = true ↔ doubted a ∨ doubted b ∨ doubtful) ∧ (o.reverse = true ↔ s.slotValue a < s.slotValue b) ∧
      (o.degraded = true ↔ ∃ k, s.img.streamContract i = some k ∧ s.img.tmin k ≠ 0 ∧ s.slotValue a < s.img.tmin k)) ∧
    (s.img.streamKind i = .gas → o.increment = gasIncrement v (s.slotValue a) (s.slotValue b) (s.slotValue c) ∧
      (o.substituted = true ↔ doubted a ∨ doubted b ∨ doubted c ∨ doubtful) ∧ o.reverse = false ∧ o.degraded = false) ∧
    (s.img.streamKind i = .power → o = ⟨v * 1000000, false, false, false⟩) ∧
    (s.img.streamKind i = .absent → o = ⟨0, false, false, false⟩))

/-- R47 to R50: moving an increment into a stream conserves energy: what the residual gains and the carry take is the
increment; total and residual stay below 10⁹; the conditions raise their seconds by at most 1, never past their last value. -/
def Obligations.CarriesConserveEnergy : Prop :=
  ∀ (st : Stream) (label : Nat) (o : TickOutcome) (summing : Bool),
    let u := st.integrate label o summing
    let carry := (st.residual + o.increment) / 1000000000
    u.residual + carry * 1000000000 = st.residual + o.increment ∧ u.residual < 1000000000 ∧
    u.total = (st.total + carry) % 1000000000 ∧
    (u.total * 1000000000 + u.residual) % 1000000000000000000 =
      (st.total * 1000000000 + st.residual + o.increment) % 1000000000000000000 ∧
    u.last = some ⟨label, o.increment, carry, o.substituted, o.degraded, o.reverse⟩ ∧
    u.frameSum = (if summing then st.frameSum + o.increment else st.frameSum) ∧
    (st.errorSeconds ≤ 4294967295 → u.errorSeconds = min 4294967295 (st.errorSeconds + if o.substituted then 1 else 0)) ∧
    (st.reverseSeconds ≤ 4294967295 → u.reverseSeconds = min 4294967295 (st.reverseSeconds + if o.reverse then 1 else 0))

/-- R41, R42, R47: the integration of a tick ends its snapshot, moves every present stream's increment into its figures,
leaves every absent stream as it stands, and returns every tick count to 0. R48: a total that passes 999,999,999 posts TOTAL ROLLOVER
to all with the total after it. R38: the counts of main and check input go to the comparison window of a GAS or HEAT stream with a
check input, which ages a tick. Then the hand-offs follow: the delivery is credited at the second before the label (R53, R137), the
export tracker takes the carry of the POWER stream (R54, R122), and the contracts take the boundaries of the label (R146): billing,
tracker, flags and notices are what these leave, and so is the store, unless a checkpoint waited for the tick. R55, R56: in OPERATING
the frame timer counts the tick; the frame's last tick sets each present stream's average, its sum × 3600 over the frame's ticks and
10⁹, each absent one's to 0, and every sum to 0, and leaves the frame due; any other tick adds the increment to the sum alone.
What two streams that share a check input add is assumption 49, that the frame is then due assumption 41. The order of the notices of one tick is the model's choice: TOTAL ROLLOVER in ascending stream index
first, then EXPORT DEVIATION, then the notices of the boundaries (assumption 9), and these, like the boundaries themselves, with the
contracts in ascending index (assumption 10). -/
def Obligations.TickIntegrationMetersEveryStream : Prop :=
  ∀ (label : Nat) (s : State), s.blocksRun = true → s.fiscal.tick = some label → s.station.commit = none →
    ∃ t, exec .tickIntegration s = .next t ∧ t.fiscal.tick = none ∧ t.clock.lastLabel = label ∧
      t.clock.ckptTicks = s.clock.ckptTicks + 1 ∧ t.station = s.station ∧ t.sensor = s.sensor ∧ t.decls = s.decls ∧
      t.alloc.consumers = s.alloc.consumers ∧ t.alloc.band = s.alloc.band ∧ t.clock.time = s.clock.time ∧ t.board = s.board ∧
      (∀ j, (t.pulses.inputs.get j) = { s.pulses.inputs.get j with count := 0 }) ∧
      (let metered := s.integrateStreams label
       let credited := metered.creditDelivery (label - 1)
       let handed := (credited.handOff label credited.exportCarry).takeBoundaries label
       t.billing = handed.billing ∧ t.tracker = handed.tracker ∧ t.ports = handed.ports ∧
       t.alloc.flags = handed.alloc.flags ∧ (s.store.gatherDue = none → t.store = handed.store) ∧
       metered.billing = s.billing ∧ metered.tracker = s.tracker ∧ metered.alloc = s.alloc ∧ metered.store = s.store ∧
       (let total (i : Fin 8) : Nat := (s.fiscal.streams.get i).total +
          ((s.fiscal.streams.get i).residual + (s.tickOutcome i).increment) / 1000000000
        let rolled := (List.finRange 8).filter fun i => s.img.present i && decide (999999999 < total i)
        metered.ports = (rolled.foldl (fun u i =>
          u.post allParties .totalRollover i.val (BitVec.ofNat 32 (total i % 1000000000))) s).ports) ∧
       (∀ i, s.img.present i = true → s.img.streamKind i = .power →
         (∀ j, s.img.present j = true → s.img.streamKind j = .power → j = i) →
         credited.exportCarry = ((s.fiscal.streams.get i).residual + (s.tickOutcome i).increment) / 1000000000) ∧
       ((∀ i, s.img.present i = true → s.img.streamKind i ≠ .power) → credited.exportCarry = 0)) ∧
      ∀ i,
        let u := (s.fiscal.streams.get i).integrate label (s.tickOutcome i) (s.station.state == .operating)
        let now := t.fiscal.streams.get i
        (s.img.present i = true → now.total = u.total ∧ now.residual = u.residual ∧ now.last = u.last ∧
          now.errorSeconds = u.errorSeconds ∧ now.reverseSeconds = u.reverseSeconds) ∧
        (s.img.present i = false → now.total = (s.fiscal.streams.get i).total ∧
          now.residual = (s.fiscal.streams.get i).residual ∧ now.last = (s.fiscal.streams.get i).last) ∧
        (let w := s.pulses.windows.get i
         let tick (n : Fin 8) : Nat := (s.pulses.inputs.get n).count
         t.pulses.windows.get i =
           if s.img.streamKind i = .gas ∨ s.img.streamKind i = .heat then
             match s.img.checkInput i with
             | some n => ⟨w.main + tick (s.img.mainInput i), w.check + tick n, w.ticks + 1, w.doubtful⟩
             | none => w
           else w) ∧
        (let sum := if s.img.present i then u.frameSum else (s.fiscal.streams.get i).frameSum
         (s.station.state ≠ .operating ∨ s.clock.frameTimer = none → now.frameSum = sum ∧
           now.frameAverage = (s.fiscal.streams.get i).frameAverage ∧ t.clock.frameTimer = s.clock.frameTimer ∧
           t.alloc.frameDue = s.alloc.frameDue) ∧
         ∀ count length, s.station.state = .operating → s.clock.frameTimer = some (count, length) →
           (count + 1 < length → now.frameSum = sum ∧ now.frameAverage = (s.fiscal.streams.get i).frameAverage ∧
             t.clock.frameTimer = some (count + 1, length) ∧ t.alloc.frameDue = s.alloc.frameDue) ∧
           (length ≤ count + 1 → now.frameSum = 0 ∧
             now.frameAverage = (if s.img.present i then sum * 3600 / (length * 1000000000) else 0) ∧
             t.clock.frameTimer = some (0, length) ∧ t.alloc.frameDue = some label))

/-- R40, R175: with nothing still due from the boundary before, a tick timer boundary in OPERATING or RECONFIGURING raises
station time by 1 and raises the tick that carries it as its label. A FRESH slot below its maximum age grows 1 s older (R32), and
so does a FRESH or STALE declaration whose lifetime is not yet reached (R63); the timer of a CHANGING consumer and the seconds of an
open consent window fall by 1 (R100, R19, R20); pending adjustments lapse when station time enters a
new current interval (R181), on an interval boundary or past one
(assumption 63).
That the raise is of the time the backup domain counts is the model's choice (assumption 15), and so is that a slot or declaration
whose time has come is marked due, its event following as a command (assumptions 6 and 29), that a boundary completes the second,
for the pulse inputs too, and that it settles what the one before left due (assumptions 3, 5 and 47). -/
def Obligations.TickBoundaryRaisesTheTick : Prop :=
  ∀ s : State, s.blocksRun = true → NothingDue s → s.clock.domain < 4294967295 →
    let ms := 1000 - s.clock.phase
    let shorter (w : ConsentWindow) : ConsentWindow := { w with left := w.left.map fun n => n - 1 }
    ∃ t, exec .tickBoundary s = .next t ∧
      t.clock.time = s.clock.domain + 1 ∧ t.clock.domain = s.clock.domain + 1 ∧ t.clock.phase = 0 ∧
      t.clock.millis = (s.clock.millis + ms) % 4294967296 ∧
      t.clock.adjustments = (if (s.clock.domain + 1 + s.img.dayOffset) % s.img.intervalLength = 0 ∨
          intervalOf s.img (s.clock.domain + 1) ≠ intervalOf s.img s.clock.time
        then Table.replicate 3 none else s.clock.adjustments) ∧
      t.fiscal = { s.fiscal with tick := some (s.clock.domain + 1) } ∧
      (∀ i, t.sensor.slots.get i =
        let sl := s.sensor.slots.get i
        if sl.state = .fresh then
          if sl.age < s.img.maxAge i then { sl with age := sl.age + 1 } else { sl with ageDue := true }
        else sl) ∧
      (∀ d, t.decls.get d =
        let r := s.decls.get d
        if r.state = .fallback then r
        else if r.age + 1 < (r.declared.map Declared.lifetime).getD 0 then { r with age := r.age + 1 }
        else { r with ageDue := true }) ∧
      (∀ e, t.consumer e =
        let c := s.consumer e
        if c.state = .changing then { c with timer := c.timer - 1 } else c) ∧
      t.station = { s.station with
        recommission := shorter s.station.recommission, clearStore := shorter s.station.clearStore } ∧
      t.pulses = { s.pulses with inputs := s.pulses.inputs.map fun x => { x with
        edge := x.edge.map fun (e : Edge) => { e with since := min 60000 (e.since + ms) }
        since := min 60000 (x.since + ms) } } ∧
      t.ports = s.ports ∧ t.tracker = s.tracker ∧ t.billing = s.billing

/-! ### Declarations and station flags -/

/-- R61 and R62: a DECLARE of the owner is taken with its value lowered to the upper value and its lifetime brought into 30 to
900; the record becomes FRESH with age 0, and the request completes CLAMPED when either figure was moved.
The widths of the data's fields are the model's choice (assumption 8). -/
def Obligations.DeclareTakesTheFigures : Prop :=
  ∀ (p : Party) (d : Fin 13) (value lifetime : Nat) (s : State), Serves s p → s.declOwner d = some p →
    let v := min (s.declUpper d) value
    let l := max 30 (min 900 lifetime)
    exec (.declare p d.val value lifetime) s = .next (answered
      { s with decls := s.decls.set d { s.decls.get d with
          state := .fresh, declared := some ⟨v, l, s.clock.time⟩, age := 0 } }
      p (if v = value ∧ l = lifetime then .ok else .clamped) (be 4 v ++ be 2 l))

/-- R63: the step a second boundary left due moves a FRESH declaration to STALE at its declared value and a STALE one to
FALLBACK at the fallback value, each with its notice to all three parties.
The due mark is the model's own (assumptions 5 and 6). -/
def Obligations.DeclarationsAge : Prop :=
  ∀ (d : Fin 13) (x : Declared) (s : State), s.blocksRun = true →
    let r := s.decls.get d
    r.ageDue = true → r.declared = some x → x.lifetime ≤ r.age + 1 →
    let moved (y : DeclState) : State := { s with decls := s.decls.set d { r with state := y, age := 0, ageDue := false } }
    (r.state = .fresh → exec (.declarationStale d) s = .next ((moved .stale).post allParties .declarationStale d.val
      (BitVec.ofNat 32 x.value))) ∧
    (r.state = .stale → exec (.declarationFallback d) s = .next ((moved .fallback).post allParties .declarationFallback
      d.val (BitVec.ofNat 32 (s.img.fallback d))))

/-! ### Gas allocation -/

/-- R75: the supply is the sum of the frame averages of every present stream whose supply mark is set. -/
def Obligations.SupplySumsMarkedStreams : Prop :=
  ∀ (s : State), s.supply =
    ((List.finRange 8).map fun i =>
      if s.img.present i ∧ s.img.supplyMark i then (s.fiscal.streams.get i).frameAverage else 0).sum

/-- R76: of the rows of its table, tried in order, the first that holds gives the holder band, and NORMAL where none holds; judged
again at the same level, a band stands. R78: the holder term is the quotient of (L_h − target) × CVh × 36 by 10 × τ, rounded toward
zero, brought within ±Hmax; it has the sign of the level's distance from the target, or is 0. R79: the distributable rate is S + H,
or 0 when that is negative. -/
def Obligations.HolderBandAndTerm : Prop :=
  (∀ (img : Image) (b : HolderBand) (level : Int),
     let rows : List (Bool × HolderBand) := [
       (decide (img.holderHH ≤ level), .highhigh),
       (decide (b = .highhigh ∧ img.holderHH - img.hysteresis < level), .highhigh),
       (decide (img.holderHi ≤ level), .high),
       (decide ((b = .high ∨ b = .highhigh) ∧ img.holderHi - img.hysteresis < level), .high),
       (decide (level ≤ img.holderLL), .lowlow),
       (decide (b = .lowlow ∧ level < img.holderLL + img.hysteresis), .lowlow),
       (decide (level ≤ img.holderLo), .low),
       (decide ((b = .low ∨ b = .lowlow) ∧ level < img.holderLo + img.hysteresis), .low)]
     nextBand img b level = ((rows.find? Prod.fst).map Prod.snd).getD .normal) ∧
  (∀ (img : Image) (b : HolderBand) (level : Int), nextBand img (nextBand img b level) level = nextBand img b level) ∧
  (∀ (img : Image) (level cv : Int) (supply : Nat), 0 ≤ cv →
     let h := holderTerm img level cv
     (∃ q : Int, q.natAbs = ((level - img.holderTarget) * cv * 36).natAbs / (10 * img.tau) ∧
       0 ≤ q * ((level - img.holderTarget) * cv) ∧
       h = if img.hmax < q then (img.hmax : Int) else if q < -(img.hmax : Int) then -(img.hmax : Int) else q) ∧
     h ≤ img.hmax ∧ -(img.hmax : Int) ≤ h ∧ (img.holderTarget ≤ level → 0 ≤ h) ∧ (level ≤ img.holderTarget → h ≤ 0) ∧
     (distributable supply h : Int) = max 0 (supply + h))

/-- R83: the shares of duty fuel go along the order, none above its room, and shares and unplaced fuel make the duty fuel. R86: a
target is 0 when the effective maximum lies below the minimum. Otherwise, from a confirmed grant above 0, it is the request, brought
down to the effective maximum and to one ramp above the confirmed grant, and up to the minimum unless it is 0; from a confirmed
grant of 0, a request above 0 lights the consumer at its minimum, or, where that is 0, at the request within one ramp. So a
target is 0 or lies from the minimum to the effective maximum. R87: each frame grant of the walk is the lesser of the target and
the rate remaining, or 0 where that lies below the minimum, and the grants and the rate left make the rate the walk began with. -/
def Obligations.LadderArithmetic : Prop :=
  (∀ (room : Fin 12 → Nat) (fuel : Nat) (order : List (Fin 12)),
     let r := shareFuel room fuel order
     r.1.map Prod.fst = order ∧ (∀ x ∈ r.1, x.2 ≤ room x.1) ∧ (r.1.map Prod.snd).sum + r.2 = fuel ∧
     (0 < r.2 → ∀ x ∈ r.1, x.2 = room x.1)) ∧
  (∀ (c : Consumer) (request : Nat),
     let t := c.target request
     let top := match c.cap with
       | some k => min k c.limits.maximum
       | none => c.limits.maximum
     (t = 0 ∨ c.limits.minimum ≤ t ∧ t ≤ top) ∧ (t ≤ request ∨ t = c.limits.minimum) ∧
     (0 < c.confirmed → t ≤ c.confirmed + c.limits.ramp ∨ t = c.limits.minimum) ∧
     (request = 0 → t = 0) ∧ (top < c.limits.minimum → t = 0) ∧
     (c.limits.minimum ≤ top → c.confirmed = 0 → 0 < min request top →
       t = if 0 < c.limits.minimum then c.limits.minimum else min (min request top) c.limits.ramp) ∧
     (c.limits.minimum ≤ top → 0 < c.confirmed →
       let x := min (min request top) (c.confirmed + c.limits.ramp)
       t = if x = 0 then 0 else max c.limits.minimum x)) ∧
  (∀ (consumers : Table Consumer 12) (request : Fin 12 → Nat) (rate : Nat) (order : List (Fin 12)),
     let r := walkLadder consumers request rate order
     r.1.map WalkedEntry.entry = order ∧ (r.1.map WalkedEntry.grant).sum + r.2 = rate ∧
     (∀ w ∈ r.1, w.target = (consumers.get w.entry).target (request w.entry) ∧
       (w.grant = 0 ∨ (consumers.get w.entry).limits.minimum ≤ w.grant ∧ w.grant ≤ w.target)) ∧
     ∀ before w after, r.1 = before ++ w :: after →
       let g := min w.target (rate - (before.map WalkedEntry.grant).sum)
       w.grant = if 0 < g ∧ g < (consumers.get w.entry).limits.minimum then 0 else g)

/-- R91: the grants in force after a frame, together with its flare demand, sum to no more than the greater of its
distributable rate and the sum of the grants it held. -/
def Obligations.GrantsAndFlareAreBounded : Prop :=
  ∀ (s : State) (label : Nat), GrantsWf s → s.dueFrame = some label →
    ∃ t f, exec .frameCompletion s = .next t ∧ t.alloc.summary = some f ∧ f.held = s.heldSum ∧
      t.inForceSum + t.alloc.flare ≤ max f.distributable s.heldSum

/-- R74, R77, R89, R93: a frame completion runs the frame: the number rises by 1, and band, pointers, flare demand and summary
are those the frame worked out, before it changed anything, from the state it read. R77: HOLDER BAND goes to Works and Plant when the
band changes; R92: FLARE to Works, and the reported figure is the new one, when the two differ by the threshold or one of them alone
is 0; then F4 and F5 follow the band (R69), and in ascending index (R90) each entry that the summary gives a frame grant is handed it;
no other consumer changes. What the summary holds (R93): S, L_h, CVh, band, H, A and held; Qr and HEAT DEMAND; R81: F_h is the
shortfall × 100 over η_h, rounded up. R80: an entry's disposition is the first reason that applies, else WALKED. R83: its share is that
of the duty fuel of its duty, handed along the walked entries in ladder order. R84: a TRIPPED or UNRESPONSIVE entry passes its unmet
request to an alternate that is walked, and passed-in amounts add. R85: a walked entry's request is declaration, share and passed-in
amount. R87, R88: target, grant and trim are the walk's, a grant of 0 for PARKED, INELIGIBLE and SHED, none for ABSENT, TRIPPED and
HELD. R89: a pointer moves past the first entry of its rank with a target above 0 when one of the rank was trimmed.
A demand past 4 bytes is a free value (assumption 20). That an unmet request of 0 shows nothing passed (34), that an unmoved demand is
not reported (35), the order of these notices (9), and that the tick that completes the frame leaves it due (41) are choices. -/
def Obligations.FrameCompletionRunsTheFrame : Prop :=
  (∀ (s : State) (label : Nat), s.dueFrame = some label →
    let number := (s.alloc.frameNumber + 1) % 4294967296
    let f := s.frameSummary label number s.powerDutyFuel
    ∃ t, exec .frameCompletion s = .next t ∧ t.alloc.frameDue = none ∧ t.alloc.frameNumber = number ∧
      t.alloc.summary = some f ∧ t.alloc.band = nextBand s.img s.alloc.band (s.slotValue s.img.levelSlot) ∧
      t.alloc.pointers = f.pointers ∧ t.alloc.flare = flareDemand s.img t.alloc.band f.remainder ∧
      (∀ e, t.consumer e = match (f.outcomes.get e).grant with
        | some g => (s.handGrant e g).consumer e
        | none => s.consumer e) ∧
      t.tracker = { s.tracker with fuel := some ⟨s.powerDutyFuel, number⟩ } ∧
      (t.alloc.flags.get 4).set = (t.alloc.band == .high || t.alloc.band == .highhigh) ∧
      (t.alloc.flags.get 5).set = (t.alloc.band == .low || t.alloc.band == .lowlow) ∧
      t.fiscal = s.fiscal ∧ t.decls = s.decls ∧ t.sensor = s.sensor ∧ t.station = s.station ∧ t.store = s.store ∧
      t.clock = s.clock ∧ t.billing = s.billing ∧
      (let old := s.alloc.reportedFlare
       let moved : Bool := decide (t.alloc.flare ≠ old ∧
         (s.img.flareThreshold ≤ ((t.alloc.flare : Int) - old).natAbs ∨ (t.alloc.flare = 0 ↔ old ≠ 0)))
       let high : Bool := decide (f.band = .high ∨ f.band = .highhigh)
       let low : Bool := decide (f.band = .low ∨ f.band = .lowlow)
       let code := match f.band with
         | .lowlow => 0
         | .low => 1
         | .normal => 2
         | .high => 3
         | .highhigh => 4
       let asked : List (Fin 8 × Bool) :=
         if high then [(5, false), (4, true)] else if low then [(4, false), (5, true)] else [(4, false), (5, false)]
       t.alloc.reportedFlare = (if moved then t.alloc.flare else old) ∧
       ∃ v : BitVec 32, (t.alloc.flare ≤ 4294967295 → v = BitVec.ofNat 32 t.alloc.flare) ∧
         let banded := if f.band = s.alloc.band then s
           else s.post [.works, .plant] .holderBand code (BitVec.ofInt 32 (s.slotValue s.img.levelSlot))
         let flared := if moved then banded.post [.works] .flare 0 v else banded
         let flagged := asked.foldl (fun (u : State) x => u.askFlag x.1 x.2) flared
         t.ports = ((List.finRange 12).foldl (fun (u : State) e => match (f.outcomes.get e).grant with
           | some g => u.handGrant e g
           | none => u) flagged).ports)) ∧
  (∀ (s : State) (label number powerFuel : Nat),
    let f := s.frameSummary label number powerFuel
    let value (d : Fin 13) : Nat := declValue s.img d (s.decls.get d)
    let out (e : Fin 12) : EntryOutcome := f.outcomes.get e
    let walked (e : Fin 12) : Bool := decide ((out e).disposition = .walked)
    let room (e : Fin 12) : Nat := (s.consumer e).limits.maximum - value (Fin.castSucc e)
    let fuelTo (d : Duty) (fuel : Nat) := shareFuel room fuel (s.ladder.filter fun e => walked e && s.img.duty e == d)
    let shares := (fuelTo .heat f.heatFuel).1 ++ (fuelTo .power powerFuel).1
    let walk := walkLadder s.alloc.consumers (fun e => value (Fin.castSucc e) + (out e).share + (out e).passedIn)
      (f.distributable - f.held) (s.ladder.filter walked)
    let unmet (e : Fin 12) : Nat :=
      if (s.consumer e).state = .tripped ∨ (s.consumer e).state = .unresponsive
      then value (Fin.castSucc e) - (s.consumer e).confirmed else 0
    let passes (e a : Fin 12) : Bool := (s.img.operator e).isSome && s.img.alternate e == some a && walked a
    f.number = number ∧ f.label = label ∧ f.supply = s.supply ∧ f.level = s.slotValue s.img.levelSlot ∧
    f.holderCV = s.slotValue s.img.cvSlot ∧ f.band = nextBand s.img s.alloc.band f.level ∧
    f.holderTerm = holderTerm s.img f.level f.holderCV ∧ f.distributable = distributable f.supply f.holderTerm ∧
    f.held = s.heldSum ∧ f.recovered = (s.img.recoveredHeat.map fun i => (s.fiscal.streams.get i).frameAverage) ∧
    f.heatDemand = value 12 ∧ f.heatState = (s.decls.get 12).state ∧ f.powerFuel = powerFuel ∧
    f.heatUnplaced = (fuelTo .heat f.heatFuel).2 ∧ f.powerUnplaced = (fuelTo .power powerFuel).2 ∧
    f.remainder = walk.2 ∧ f.flare = flareDemand s.img f.band walk.2 ∧
    (0 < s.img.heatEfficiency → ∀ x, f.heatFuel ≤ x ↔
      (f.heatDemand - f.recovered.getD 0) * 100 ≤ x * s.img.heatEfficiency) ∧
    (∀ e,
      let c := s.consumer e
      let met : Bool := match s.img.eligibility e with
        | .always => true
        | .whenSet n => (s.alloc.flags.get (Fin.ofNat 8 n)).set
        | .whenClear n => !(s.alloc.flags.get (Fin.ofNat 8 n)).set
      (out e).disposition =
        (if s.img.operator e = none ∨ c.state = .out then .absent
          else if c.state = .tripped then .tripped
          else if c.state = .unresponsive ∨ c.state = .changing then .held
          else if c.parked = true then .parked
          else if met = false then .ineligible
          else if f.band = .lowlow ∧ s.img.shedRank ≤ 7 ∧ s.img.shedRank ≤ s.img.rank e then .shed
          else .walked) ∧
      (out e).declValue = value (Fin.castSucc e) ∧ (out e).declState = (s.decls.get (Fin.castSucc e)).state ∧
      (out e).share = ((shares.find? fun x => x.1 == e).map Prod.snd).getD 0 ∧
      (∀ x, (out e).passedOut = some x ↔ ∃ a, passes e a = true ∧ 0 < unmet e ∧ x = (unmet e, a.val)) ∧
      (out e).passedIn = ((List.finRange 12).map fun x => if passes x e then unmet x else 0).sum ∧
      (out e).request = (if walked e then some ((out e).declValue + (out e).share + (out e).passedIn) else none) ∧
      let w := walk.1.find? fun w => w.entry == e
      (out e).target = w.map WalkedEntry.target ∧ (out e).trim = (w.map fun x => decide (x.grant < x.target)).getD false ∧
      (out e).grant = (match (out e).disposition with
        | .walked => w.map WalkedEntry.grant
        | .absent => none
        | .tripped => none
        | .held => none
        | _ => some 0)) ∧
    ∀ r,
      let order := s.rotationOrder r
      let trimmed := order.any fun e => (out e).trim
      (order.length ≤ 1 ∨ trimmed = false → f.pointers.get r = s.alloc.pointers.get r) ∧
      ∀ before e after g, order = before ++ e :: after → 2 ≤ order.length → trimmed = true → (out e).target = some g →
        0 < g → (∀ x ∈ before, ∀ h, (out x).target = some h → h = 0) →
        some (f.pointers.get r) = (after ++ before ++ [e]).head?)

/-- R98 and R99: a frame grant equal to the confirmed grant changes nothing; one that must be confirmed moves the consumer to
CHANGING with the next id, a pending and posted grant, a running timer and a GRANT to its operating party; any other is
absorbed. No other consumer changes. -/
def Obligations.FrameGrantsArePostedOrAbsorbed : Prop :=
  ∀ (s : State) (e : Fin 12) (g : Nat),
    let c := s.consumer e
    let due := g = 0 ∧ c.confirmed ≠ 0 ∨ g ≠ 0 ∧ c.confirmed = 0 ∨
      c.limits.threshold ≤ ((g : Int) - c.confirmed).natAbs
    (g = c.confirmed → s.handGrant e g = s) ∧
    (g ≠ c.confirmed → due → s.handGrant e g =
      (s.setConsumer e { c with
          state := .changing, id := (c.id + 1) % 256, pending := some g, posted := some g, retry := 0
          timer := s.img.confirmationTime }).post
        (s.img.operator e).toList .grant e.val (BitVec.ofNat 32 g) 0 ((c.id + 1) % 256)) ∧
    (g ≠ c.confirmed → ¬due → s.handGrant e g =
      s.setConsumer e { c with state := .running, confirmed := g, pending := none, retry := 0, timer := 0 })

/-! ### The grant protocol -/

/-- R101: the first expiry of a CHANGING consumer sets the retry count to 1, posts GRANT again with the same entry, pending
grant and id and the RETRY mark set, and starts the timer again; the consumer stays CHANGING and its pending grant stays in
the held sum. -/
def Obligations.FirstExpiryPostsAgain : Prop :=
  ∀ (e : Fin 12) (g : Nat) (s : State), s.blocksRun = true →
    let c := s.consumer e
    c.state = .changing → c.timer = 0 → c.retry = 0 → c.pending = some g →
    ∃ t, exec (.firstExpiry e) s = .next t ∧
      t = (s.setConsumer e { c with retry := 1, timer := s.img.confirmationTime }).post
        (s.img.operator e).toList .grant e.val (BitVec.ofNat 32 g) 1 c.id ∧
      (t.consumer e).state = .changing ∧ (t.consumer e).pending = some g ∧ t.heldSum = s.heldSum

/-- R102: the second expiry makes the consumer UNRESPONSIVE, drops its pending grant and stops its timer; the confirmed grant
stands, is held, and is the value of UNRESPONSIVE to all three parties. -/
def Obligations.SecondExpiryMakesUnresponsive : Prop :=
  ∀ (e : Fin 12) (s : State), s.blocksRun = true →
    let c := s.consumer e
    c.state = .changing → c.timer = 0 → c.retry = 1 →
    ∃ t, exec (.secondExpiry e) s = .next t ∧
      t = (s.setConsumer e { c with state := .unresponsive, pending := none, retry := 0, timer := 0 }).post allParties
        .unresponsive e.val (BitVec.ofNat 32 c.confirmed) ∧
      (t.consumer e).posted = c.posted ∧ (t.consumer e).id = c.id ∧ (t.consumer e).holds = c.confirmed

/-- R103: a request for a consumer entry is refused RANGE above entry 11, STATE for an absent entry, and DENIED to a party that
does not operate it; nothing else changes. -/
def Obligations.EntryRequestsObeyTheOperator : Prop :=
  ∀ (p : Party) (n a b c d e : Nat) (s : State) (i : Instr), Serves s p →
    i ∈ [Instr.confirmGrant p n a, .refuseGrant p n a b, .reportTrip p n, .reportReady p n a, .park p n, .unpark p n,
      .setLimits p n b c d e] →
    (12 ≤ n → exec i s = .next (answered s p .range [])) ∧
    ∀ f : Fin 12, f.val = n →
      (s.img.operator f = none → exec i s = .next (answered s p .state [])) ∧
      (∀ q, s.img.operator f = some q → q ≠ p → exec i s = .next (answered s p .denied []))

/-- R104 and R105: CONFIRM GRANT and REFUSE GRANT with the current id settle a CHANGING or UNRESPONSIVE consumer, at the posted
grant or under a cap; another id is refused MISMATCH, and any other state STATE.
The order and widths of the data's fields are the model's choice (assumption 8). -/
def Obligations.GrantAnswersSettle : Prop :=
  ∀ (p : Party) (e : Fin 12) (id acceptable : Nat) (s : State), Serves s p → Operates s p e →
    let c := s.consumer e
    let waits := c.state = .changing ∨ c.state = .unresponsive
    let settled (confirmed : Nat) (cap : Option Nat) : Consumer := { c with
      state := if confirmed = 0 then .ready else .running
      confirmed := confirmed, pending := none, retry := 0, timer := 0, cap := cap }
    let done (x : Consumer) (r : Result) : Out := .next (answered (s.setConsumer e x) p r (consumerData x))
    (∀ g, c.state = .changing → c.pending = some g → id = c.id →
      exec (.confirmGrant p e.val id) s = done (settled g c.cap) .ok) ∧
    (∀ g, c.state = .unresponsive → c.posted = some g → id = c.id →
      exec (.confirmGrant p e.val id) s = done (settled g c.cap) .ok) ∧
    (waits → id = c.id → exec (.refuseGrant p e.val id acceptable) s =
      done (settled c.confirmed (some (min c.limits.maximum acceptable)))
        (if acceptable ≤ c.limits.maximum then .ok else .clamped)) ∧
    (waits → id ≠ c.id → exec (.confirmGrant p e.val id) s = .next (answered s p .mismatch []) ∧
      exec (.refuseGrant p e.val id acceptable) s = .next (answered s p .mismatch [])) ∧
    (¬waits → exec (.confirmGrant p e.val id) s = .next (answered s p .state []) ∧
      exec (.refuseGrant p e.val id acceptable) s = .next (answered s p .state []))

/-- R106 and R107: REPORT TRIP takes the consumer to TRIPPED at 0, and changes nothing in TRIPPED; REPORT READY settles it at the
firing figure, lowered to the maximum, and clears the cap. R108 and R109: PARK and UNPARK change the attribute alone; SET LIMITS
within the hard bounds replaces the four limits and lowers a cap above the new maximum, and is refused RANGE otherwise.
The order and widths of the data's fields are the model's choice (assumption 8). -/
def Obligations.ReportsParkingAndLimits : Prop :=
  (∀ (p : Party) (e : Fin 12) (firing : Nat) (s : State), Serves s p → Operates s p e →
     let c := s.consumer e
     let tripped : Consumer := { c with state := .tripped, confirmed := 0, pending := none, retry := 0, timer := 0 }
     let g := min c.limits.maximum firing
     let ready : Consumer := { c with
       state := if g = 0 then .ready else .running
       confirmed := g, pending := none, retry := 0, timer := 0, cap := none }
     (c.state ≠ .tripped → exec (.reportTrip p e.val) s =
       .next (answered (s.setConsumer e tripped) p .ok (consumerData tripped))) ∧
     (c.state = .tripped → exec (.reportTrip p e.val) s = .next (answered s p .ok (consumerData c))) ∧
     exec (.reportReady p e.val firing) s = .next (answered (s.setConsumer e ready) p
       (if firing ≤ c.limits.maximum then .ok else .clamped) (consumerData ready))) ∧
  (∀ (p : Party) (e : Fin 12) (lo hi ramp threshold : Nat) (s : State), Serves s p → Operates s p e →
     let c := s.consumer e
     let put (x : Consumer) : Out := .next (answered (s.setConsumer e x) p .ok (consumerData x))
     let top := s.img.hardMax e
     exec (.park p e.val) s = put { c with parked := true } ∧
     exec (.unpark p e.val) s = put { c with parked := false } ∧
     exec (.setLimits p e.val lo hi ramp threshold) s =
       if s.img.hardMin e ≤ lo ∧ lo ≤ hi ∧ hi ≤ top ∧ 1 ≤ ramp ∧ ramp ≤ top ∧ 1 ≤ threshold ∧ threshold ≤ top then
         put { c with limits := ⟨lo, hi, ramp, threshold⟩, cap := c.cap.map fun k => min k hi }
       else .next (answered s p .range []))

/-! ### Export tracking -/

/-- R119: NOMINATE is judged in R119's order, and once taken enters the queue at its place or replaces its interval's entry; R120:
CANCEL NOMINATION is judged alike, with the kWh check left out, and removes the entry. R121: with a gate above 0 both are refused
TOO_LATE once the start is at most a second away, which is read as a rule beside R119's comparison (assumption 51). The queue keeps
its order (R118).
The order and widths of the data's fields are the model's choice (assumption 8). -/
def Obligations.NominationsEnterAndLeaveTheQueue : Prop :=
  (∀ (p : Party) (interval kwh : Nat) (s : State), Hears s p →
    let q := s.tracker.queue
    let old := (q.find? fun x => x.interval == interval).map Nomination.kwh
    let start : Int := (interval : Int) * s.img.intervalLength - s.img.dayOffset
    let refusal : Option Result :=
      if s.settled = false then some .state
      else if s.img.recordContract.map s.img.seller ≠ some p then some .denied
      else if interval < s.tracker.running + 1 ∨ s.tracker.running + 8 < interval then some .range
      else if start - s.clock.time < s.img.gate ∨ 0 < s.img.gate ∧ start - s.clock.time ≤ 1 then some .tooLate
      else none
    let tooMuch : Bool := decide (refusal ≠ some .state ∧ refusal ≠ some .denied ∧ 1000000 < kwh)
    let entered := enterNomination q ⟨interval, kwh⟩
    exec (.nominate p interval kwh) s = .next (
      match (if tooMuch then some .range else refusal) with
      | some r => answered s p r []
      | none => answered { s with tracker := { s.tracker with queue := entered } } p .ok
          (be 4 interval ++ be 4 kwh ++ optField 4 old ++ be 4 entered.length)) ∧
    exec (.cancelNomination p interval) s = .next (
      match refusal with
      | some r => answered s p r []
      | none => answered { s with tracker := { s.tracker with queue := q.filter fun x => x.interval != interval } } p .ok
          (optField 4 old))) ∧
  (∀ (q : List Nomination) (x : Nomination), q.Pairwise (fun a b => a.interval < b.interval) →
    (enterNomination q x).Pairwise (fun a b => a.interval < b.interval) ∧
    ∀ y, y ∈ enterNomination q x ↔ y = x ∨ y ∈ q ∧ y.interval ≠ x.interval)

/-- R122, R123 and R125: a hand-off adds the carry to E and judges the deviation, with F7 following the judgement; the hand-off
whose label ends the running interval then begins the next one, with N from the queue's head or carried, E 0 and not BEHIND.
R124: at that end the closed interval goes to the open account of the RECORD contract, with its deviation mark when E and N differ
by more than the tolerance; EXPORT DEVIATION is then posted, with E − N, and no other contract changes. R126 and R127: an account
takes it as a new entry at its offset, or, past offset 95, folds it into the entry of offset 95, every figure stopping at the last
value of its field.
A difference E − N that 4 signed bytes do not hold is a free value (assumption 20). That EXPORT DEVIATION is posted before the FLAG
CHANGED of F7 (assumption 9), and that N and E of a new entry stop at 16,777,215 as those of a folded one do (assumption 44), are the
model's choices. -/
def Obligations.HandOffsFollowTheExport : Prop :=
  (∀ (s : State) (label carry : Nat),
    let t := s.handOff label carry
    let e := min 4294967295 (s.tracker.e + carry)
    let elapsed : Int := (label : Int) + s.img.dayOffset - (s.tracker.running : Int) * s.img.intervalLength
    (t.alloc.flags.get 7).set = t.tracker.behind ∧
    ((label + s.img.dayOffset) % s.img.intervalLength ≠ 0 →
      t.tracker = { s.tracker with
        e := e
        behind := decide ((e : Int) - s.tracker.n * elapsed / s.img.intervalLength <
          -((s.tracker.n * s.img.tolerance / 100 : Nat) : Int)) } ∧ t.billing = s.billing) ∧
    (label + s.img.dayOffset = (s.tracker.running + 1) * s.img.intervalLength →
      (∀ h rest, s.tracker.queue = h :: rest → h.interval = s.tracker.running + 1 →
        t.tracker = { s.tracker with
          running := s.tracker.running + 1, n := h.kwh, carried := false, outage := false, e := 0, behind := false
          queue := rest }) ∧
      (s.tracker.queue.head?.map Nomination.interval ≠ some (s.tracker.running + 1) →
        t.tracker = { s.tracker with
          running := s.tracker.running + 1, carried := true, outage := false, e := 0, behind := false }) ∧
      ∀ c, s.img.recordContract = some c →
        let k := s.contract c
        let offset := s.tracker.running - (k.opened.start + s.img.dayOffset) / s.img.intervalLength
        let deviates : Bool :=
          decide (s.tracker.n * s.img.tolerance / 100 < ((e : Int) - s.tracker.n).natAbs)
        t.contract c = { k with opened := k.opened.addInterval offset { s.tracker with e := e } deviates } ∧
        (∀ d, d ≠ c → t.contract d = s.contract d) ∧
        ∃ v : BitVec 32,
          (-2147483648 ≤ (e : Int) - s.tracker.n → (e : Int) - s.tracker.n ≤ 2147483647 →
            v = BitVec.ofInt 32 ((e : Int) - s.tracker.n)) ∧
          let told := if deviates then
              s.post [.plant, .works] .exportDeviation (min offset 95) v
                ((if s.tracker.carried then 1 else 0) + (if s.tracker.outage then 2 else 0))
            else s
          t.ports = (told.askFlag 7 false).ports)) ∧
  (∀ (a : Account) (offset : Nat) (x : Tracker) (deviates : Bool),
    (offset ≤ 95 → a.addInterval offset x deviates = { a with entries := a.entries ++
      [⟨offset, min 16777215 x.n, min 16777215 x.e, x.carried, x.outage, deviates, false, 0⟩] }) ∧
    (95 < offset → a.addInterval offset x deviates = { a with entries := a.entries.map fun y =>
      if y.offset = 95 then
        ⟨95, min 16777215 (y.n + x.n), min 16777215 (y.e + x.e), y.carried || x.carried, y.outage || x.outage,
          y.deviation || deviates, true, min 65535 (y.folds + 1)⟩
      else y }))

/-! ### Tariffs and billing periods -/

/-- R141 to R143: STAGE TARIFF of the seller gives the change the next identity and replaces an unconsented one; CONSENT TARIFF of
the buyer with the staged identity sets the consent mark; WITHDRAW TARIFF of the seller removes an unconsented change.
The order and widths of the data's fields are the model's choice (assumption 8). -/
def Obligations.TariffsAreStagedAndConsented : Prop :=
  ∀ (p : Party) (c : Fin 4) (s : State), Serves s p → s.img.isRecord c = false →
    let k := s.contract c
    let both := [s.img.seller c, s.img.buyer c]
    (∀ effective bands percentage, p = s.img.seller c → tariffFiguresOk bands percentage = true →
      firstUncovered bands = none → k.opened.period + 1 ≤ effective → effective ≤ k.opened.period + 12 →
      (∀ g, k.staged = some g → g.consented = false) →
      let identity := if s.billing.counter < 4294967295 then s.billing.counter + 1 else 1
      let t := { s with billing := {
        contracts := s.billing.contracts.set c
          { k with staged := some ⟨identity, effective, bands, percentage, false, s.clock.time⟩ }
        counter := identity } }
      exec (.stageTariff p c.val effective bands percentage) s = .next (answered
        (t.post both .tariffStaged c.val (BitVec.ofNat 32 identity)) p .ok
        (be 4 identity ++ be 4 effective ++ optField 4 (k.staged.map Staged.identity)))) ∧
    (∀ g, p = s.img.buyer c → k.staged = some g →
      exec (.consentTariff p c.val g.identity) s = .next (answered
        (s.mapContract c fun _ => { k with staged := some { g with consented := true } }) p .ok
        (be 4 g.identity ++ be 4 g.effective)) ∧
      ∀ other, other ≠ g.identity →
        exec (.consentTariff p c.val other) s = .next (answered s p .mismatch [])) ∧
    (∀ g, p = s.img.seller c → k.staged = some g →
      (g.consented = false → exec (.withdrawTariff p c.val) s = .next (answered
        ((s.mapContract c fun _ => { k with staged := none }).post both .tariffLapsed c.val (BitVec.ofNat 32 g.identity) 1)
        p .ok (be 4 g.identity))) ∧
      (g.consented = true → exec (.withdrawTariff p c.val) s = .next (answered s p .state [])))

/-- R137: kilowatt-hours are credited to the normal or the degraded count of their band and charged at that price; under a tariff
the band is the first whose window contains the minute, and the RECORD contract, which has no tariff, counts them in band 0
without price. R138: a substituted line adds its kilowatt-hours to the substituted energy as well. R53, R137 and R139: each contract
that a present stream names is credited the lines of those streams, each in turn, at the minute of the day of the second, with one
error second when any line is substituted, and the account takes the CLOCK SUSPECT flag while the clock is suspect; a contract
that no present stream names stays. -/
def Obligations.CarriesAreCreditedToTheirBand : Prop :=
  (∀ (a : Account) (t : Tariff) (minute b : Nat) (pb : PricedBand) (l : LastTick),
    t.bandAt minute = some b → t.bands[b]? = some pb → b < 6 →
    bandContains pb.band minute = true ∧
    (∀ j x, j < b → t.bands[j]? = some x → bandContains x.band minute = false) ∧
    ∀ i : Fin 6, (a.creditLine (some t) minute l).bands.get i =
      if i.val = b then
        let x := a.bands.get i
        if l.degraded then ⟨x.normal, (x.degraded + l.carry) % 1099511627776,
          (x.charge + l.carry * pb.degraded) % 18446744073709551616⟩
        else ⟨(x.normal + l.carry) % 1099511627776, x.degraded,
          (x.charge + l.carry * pb.band.price) % 18446744073709551616⟩
      else a.bands.get i) ∧
  (∀ (a : Account) (tariff : Option Tariff) (minute : Nat) (l : LastTick),
    (∀ i : Fin 6, (a.creditLine none minute l).bands.get i =
      if i = 0 then
        let x := a.bands.get i
        ⟨(x.normal + l.carry) % 1099511627776, x.degraded, x.charge % 18446744073709551616⟩
      else a.bands.get i) ∧
    (a.creditLine tariff minute l).substituted =
      if l.substituted then (a.substituted + l.carry) % 1099511627776 else a.substituted) ∧
  (∀ (a : Account) (tariff : Option Tariff) (minute : Nat) (lines : List LastTick) (suspect : Bool),
    let u := a.creditEntry tariff minute lines suspect
    let v := lines.foldl (fun x l => x.creditLine tariff minute l) a
    u.bands = v.bands ∧ u.substituted = v.substituted ∧ u.suspect = (a.suspect || suspect) ∧
    (a.errorSeconds ≤ 4294967295 → u.errorSeconds =
      min 4294967295 (a.errorSeconds + if lines.any fun l => l.substituted then 1 else 0))) ∧
  (∀ (s : State) (second : Nat) (c : Fin 4),
    (∀ l, l ∈ s.deliveryLines c ↔ ∃ i, s.img.present i = true ∧ s.img.streamContract i = some c ∧
      (s.fiscal.streams.get i).last = some l) ∧
    (s.creditDelivery second).contract c =
      let k := s.contract c
      let minute := (second + s.img.dayOffset) % 86400 / 60
      if s.deliveryLines c = [] then k
      else { k with opened := k.opened.creditEntry k.tariff minute (s.deliveryLines c) s.clock.suspect })

/-- R146, R147 and R149: at a boundary a contract without a closing account closes its period and opens the next when the store
has room for its record, or already holds it (the closing account is then dropped), and PERIOD CLOSED is posted; with a closing
account waiting, or without room, the period is extended and keeps its number and counts, and PERIOD EXTENDED is posted with its
cause. R144: as the next period opens, a staged change effective in it is put in force with its degraded prices fixed, or lapses
when it lacks consent, with TARIFF APPLIED or TARIFF LAPSED before PERIOD CLOSED; any other staged change stays. R139: the new
account carries the identity and band count of the tariff then in force. R159: there is room when every reserved record and then
this one find a place in thought: after the record before, or at unit 0 of the first sector on in ring order that can take it.
The model's choices: a retiring write sector takes no record in thought (assumption 19), one that waits for its own erase takes
them from the next unit held for it (assumption 61), and the notices of one boundary come in this order (assumption 9). -/
def Obligations.PeriodsCloseOrExtend : Prop :=
  (∀ (s : State) (c : Fin 4) (label : Nat), (s.contract c).nextBoundary = label →
    let k := s.contract c
    let t := s.takeBoundary label c
    let u := t.contract c
    let next := label + s.img.periodDays c * 86400
    let both := [s.img.seller c, s.img.buyer c]
    let effective := k.staged.filter fun g => g.effective == k.period + 1
    let tariff : Option Tariff := match effective with
      | some g => if g.consented then
          some ⟨g.identity, g.bands.map fun b => ⟨b, b.price * g.percentage / 100⟩, g.percentage⟩ else k.tariff
      | none => k.tariff
    let opens : Prop :=
      u.period = k.period + 1 ∧ u.tariff = tariff ∧ u.staged = (if effective.isSome then none else k.staged) ∧
      u.opened = { Account.empty with
        period := k.period + 1, start := label, finish := next, identity := (tariff.map Tariff.identity).getD 0
        bandCount := (tariff.map fun x => x.bands.length).getD 1
        recommission := s.station.state == .reconfiguring, suspect := s.clock.suspect } ∧
      t.ports = ((match effective with
        | some g => s.post both (if g.consented then .tariffApplied else .tariffLapsed) c.val (BitVec.ofNat 32 g.identity)
        | none => s).post both .periodClosed c.val (BitVec.ofNat 32 k.opened.period)).ports
    u.nextBoundary = next ∧ (∀ d, d ≠ c → t.contract d = s.contract d) ∧
    (k.closing = none → s.store.holdsRecord c.val k.opened.period = false → s.store.hasRoom k.opened.units = true →
      opens ∧ u.closing = some { k.opened with finish := label } ∧
      t.store.sequence = (s.store.sequence + 1) % 4294967296) ∧
    (k.closing = none → s.store.holdsRecord c.val k.opened.period = true →
      opens ∧ u.closing = none ∧ t.store = s.store) ∧
    (k.closing.isSome = true ∨
        s.store.holdsRecord c.val k.opened.period = false ∧ s.store.hasRoom k.opened.units = false →
      u = { k with nextBoundary := next, opened := { k.opened with extended := true, finish := next } } ∧
      t.store = s.store ∧
      t.ports = (s.post both .periodExtended c.val (BitVec.ofNat 32 k.opened.period) 0
        (if k.closing.isSome then 2 else 1)).ports)) ∧
  (∀ (st : Store) (m : Nat),
    let w := st.sector st.writeSector
    let first := if w.state = .filling ∧ w.retiring = false ∨ w.state = .erasing then st.nextUnit else 129
    st.hasRoom m = ((st.reserved ++ [m]).foldlM st.thinkPlace ⟨st.writeSector, first, [st.writeSector]⟩).isSome) ∧
  (∀ (st : Store) (pos : ThoughtPos) (m : Nat),
    (pos.next + m ≤ 128 → st.thinkPlace pos m = some { pos with next := pos.next + m }) ∧
    (128 < pos.next + m →
      (∀ x, st.thinkPlace pos m = some x → ∃ n, x = ⟨n, m, n :: pos.used⟩) ∧
      ∀ n, st.thinkPlace pos m = some ⟨n, m, n :: pos.used⟩ ↔
        ∃ before after, (List.range 53).map (fun k => 10 + (pos.sector - 10 + 1 + k) % 54) = before ++ n :: after ∧
          (∀ x ∈ before, (st.sector x).state = .retired ∨
            (st.sector x).retiring = true ∧ ((st.sector x).state = .releasable ∨ (st.sector x).state = .erasing)) ∧
          (st.sector n).retiring = false ∧ n ∉ pos.used ∧
          ((st.sector n).state = .erased ∨ (st.sector n).state = .erasing ∨ (st.sector n).state = .releasable)))

/-! ### The record store -/

/-- R161 and R165: RELEASE RECORD and READ RECORD that are accepted join the array queue with the slot WORKING; a mark already set
answers at once; a sector that is ERASED, ERASING or RETIRED answers GONE; and when the mark program or the read is served, the
response is placed.
The order and widths of the data's fields are the model's choice (assumption 8). What the mark byte reads after its program is an
operand of the command (assumption 17); the parts and bytes that a void span shorter than a header has are assumption 33. -/
def Obligations.RecordRequestsWaitAndAreServed : Prop :=
  (∀ (p : Party) (sector unit : Nat) (s : State), Serves s p → 10 ≤ sector → sector ≤ 63 → unit ≤ 127 →
    let state := (s.store.sector sector).state
    let busy := state = .filling ∨ state = .full ∨ state = .releasable
    (¬busy → exec (.releaseRecord p sector unit) s = .next (answered s p .gone []) ∧
      ∀ part, exec (.readRecord p sector unit part) s = .next (answered s p .gone [])) ∧
    ∀ e, busy → s.store.entryAt sector unit = some e →
      (∀ part, part ≤ e.lastPart → exec (.readRecord p sector unit part) s =
        .next (awaiting { s with store := s.store.enqueue (.read p e part false) } p)) ∧
      ∀ v, e.valid = some v →
        (partyCode p = v.seller → v.sellerMark = false → exec (.releaseRecord p sector unit) s =
          .next (awaiting { s with store := s.store.enqueue (.mark p sector unit true v.contract v.period false) } p)) ∧
        (partyCode p = v.seller → v.sellerMark = true → exec (.releaseRecord p sector unit) s =
          .next (answered s p .ok (be 1 sector ++ be 1 unit ++ be 1 v.contract ++ be 4 v.period ++ [0x01#8] ++
            markByte v.buyerMark))) ∧
        (partyCode p ≠ v.seller → partyCode p = v.buyer → v.buyerMark = false → exec (.releaseRecord p sector unit) s =
          .next (awaiting { s with store := s.store.enqueue (.mark p sector unit false v.contract v.period false) } p)) ∧
        (partyCode p ≠ v.seller → partyCode p = v.buyer → v.buyerMark = true → exec (.releaseRecord p sector unit) s =
          .next (answered s p .ok (be 1 sector ++ be 1 unit ++ be 1 v.contract ++ be 4 v.period ++
            markByte v.sellerMark ++ [0x01#8]))) ∧
        (partyCode p ≠ v.seller → partyCode p ≠ v.buyer →
          exec (.releaseRecord p sector unit) s = .next (answered s p .denied []))) ∧
  (∀ (p : Party) (e : IndexEntry) (part : Nat) (s : State), s.store.current = some (.read p e part false) →
    exec .recordReadDone s = .next
      (({ s with store := { s.store with current := none } } : State).respond p .ok (recordData s.store.cells e part))) ∧
  (∀ (p : Party) (sector unit contract period : Nat) (bySeller : Bool) (mark : Byte) (s : State),
    s.store.current = some (.mark p sector unit bySeller contract period false) →
    let a := sector * 4096 + unit * 32 + (if bySeller then 158 else 159)
    let cells := writeCell s.store.cells a (readCell s.store.cells a &&& mark)
    let st := { s.store with cells := cells, current := none }
    (readCell cells a = 0xFF#8 →
      exec (.markProgramDone mark) s = .next (({ s with store := st } : State).respond p .state [])) ∧
    (readCell cells a ≠ 0xFF#8 →
      exec (.markProgramDone mark) s = .next
        (({ s with store := { st with
            index := st.index.map fun (e : IndexEntry) => e.marked sector unit bySeller }.release sector } : State).respond
          p .ok (releaseData cells sector unit contract period))))

/-- R154 and R155: the array, when free, serves the oldest operation that can be served, passing over older ones that cannot; with
none it resumes a suspended erase, or erases the sector at the head of the erase list. R154, R158 and R169: a record can be served
when it has a place: at the next unit of the FILLING write sector, or, where it does not fit, at unit 0 of
the next sector in ring order that is neither RETIRED nor retiring, once that is ERASED, and, by R164, none while the write sector is itself
ERASING; a mark or a read always; a checkpoint unless its target is still ERASING; a configuration program once its sector is
erased. A record that moves on leaves its old sector FULL while a release mark is missing there. A checkpoint without a target is
abandoned with STORE DEFECT. R170: after the power-fail warning only a checkpoint is served. R155: an operation that can be served
suspends, as it joins the queue, an erase in progress; any other joins alone. R153: in BLANK the array serves configuration programs
and erases configuration sectors only, and in STARTING and without the main supply it begins nothing.
That a served operation leaves the queue (assumption 18), and that a retiring write sector takes no further record, so that the next
sector is asked as where it does not fit (assumption 19), are the model's choices. -/
def Obligations.ArrayServesTheQueueThenErases : Prop :=
  (∀ s : State, s.blocksRun = true → s.store.current = none →
    let now (st : Store) : Out := .next { s with store := st }
    (s.store.pfw = false →
      (∀ before op rest, s.store.queue = before ++ op :: rest → (∀ x ∈ before, s.store.canServe x = false) →
        let q := before ++ rest
        (∀ r unit, op = .record r → s.store.place r.units = some (s.store.writeSector, unit) →
          exec .arrayServe s = now { s.store with queue := q, current := some (.record r s.store.writeSector unit) }) ∧
        (∀ r n, op = .record r → s.store.place r.units = some (n, 0) → n ≠ s.store.writeSector →
          10 ≤ s.store.writeSector → s.store.writeSector ≤ 63 →
          ∃ st, exec .arrayServe s = now st ∧ st.current = some (.record r n 0) ∧ st.queue = q ∧ st.writeSector = n ∧
            st.nextUnit = 0 ∧ (st.sector n).state = .filling ∧ st.cells = s.store.cells ∧
            ((s.store.sector s.store.writeSector).state = .filling → s.store.allReleased s.store.writeSector = false →
              (st.sector s.store.writeSector).state = .full)) ∧
        (∀ p sector unit bySeller contract period gone, op = .mark p sector unit bySeller contract period gone →
          exec .arrayServe s = now { s.store with queue := q, current := some (.mark p sector unit bySeller contract
            period (gone || decide ((s.store.sector sector).state = .erasing))) }) ∧
        (∀ p e part gone, op = .read p e part gone →
          exec .arrayServe s = now { s.store with queue := q, current := some (.read p e part
            (gone || decide (s.store.suspended = some e.sector))) }) ∧
        (∀ c n, op = .checkpoint c → s.store.ckptTarget = .write n →
          exec .arrayServe s = now { s.store with queue := q, current := some (.checkpoint c n) }) ∧
        (∀ c, op = .checkpoint c → s.store.ckptTarget = .none →
          exec .arrayServe s = .next (({ s with store := { s.store with queue := q } } : State).post allParties
            .storeDefect 255 3#32)) ∧
        (∀ sector generation image, op = .config sector generation image → sectorBlank s.store.cells sector = true →
          exec .arrayServe s = now { s.store with queue := q, current := some (.config sector generation image) })) ∧
      ((∀ x ∈ s.store.queue, s.store.canServe x = false) →
        (∀ n, s.store.suspended = some n →
          exec .arrayServe s = now { s.store with current := some (.erase n), suspended := none }) ∧
        (∀ n rest, s.store.suspended = none → s.store.eraseList = n :: rest →
          exec .arrayServe s = now { s.store with current := some (.erase n), eraseMs := 0 }) ∧
        (s.store.suspended = none → s.store.eraseList = [] → exec .arrayServe s = .next s))) ∧
    (s.store.pfw = true →
      (∀ c n, s.store.queue = [.checkpoint c] → s.store.ckptTarget = .write n →
        exec .arrayServe s = now { s.store with queue := [], current := some (.checkpoint c n) }) ∧
      ((∀ c, .checkpoint c ∉ s.store.queue) → exec .arrayServe s = .next s))) ∧
  (∀ (st : Store) (x : ArrayOp), st.canServe x = match x with
    | .record r => (st.place r.units).isSome
    | .mark .. => true
    | .read .. => true
    | .checkpoint _ => decide (st.ckptTarget ≠ .wait)
    | .config sector _ _ => sectorBlank st.cells sector) ∧
  (∀ (st : Store) (m : Nat),
    let w := st.sector st.writeSector
    let fits : Prop := w.state = .filling ∧ w.retiring = false ∧ st.nextUnit + m ≤ 128
    (fits → st.place m = some (st.writeSector, st.nextUnit)) ∧ (w.state = .erasing → st.place m = none) ∧
    (¬fits → w.state ≠ .erasing → ∀ n unit, st.place m = some (n, unit) ↔ unit = 0 ∧
      ∃ before after, (List.range 53).map (fun k => 10 + (st.writeSector - 10 + 1 + k) % 54) = before ++ n :: after ∧
        (∀ x ∈ before, (st.sector x).state = .retired ∨ (st.sector x).retiring = true) ∧
        (st.sector n).state = .erased ∧ (st.sector n).retiring = false)) ∧
  (∀ (st : Store) (op : ArrayOp),
    let joined := { st with queue := st.queue ++ [op] }
    (∀ n, st.current = some (.erase n) → st.canServe op = true →
      st.enqueue op = { joined with current := none, suspended := some n }) ∧
    ((∀ n, st.current ≠ some (.erase n)) ∨ st.canServe op = false → st.enqueue op = joined)) ∧
  (∀ s : State, (s.board.mainOn = false ∨ s.station.state = .starting → exec .arrayServe s = .next s) ∧
    (s.board.mainOn = true → s.station.state = .blank → s.store.current = none →
      let now (st : Store) : Out := .next { s with store := st }
      let programs (x : ArrayOp) : Prop :=
        ∃ sector generation image, x = .config sector generation image ∧ sectorBlank s.store.cells sector = true
      (s.store.pfw = true → exec .arrayServe s = .next s) ∧
      (s.store.pfw = false →
        (∀ before sector generation image rest, s.store.queue = before ++ .config sector generation image :: rest →
          sectorBlank s.store.cells sector = true → (∀ x ∈ before, ¬programs x) →
          exec .arrayServe s =
            now { s.store with queue := before ++ rest, current := some (.config sector generation image) }) ∧
        ((∀ x ∈ s.store.queue, ¬programs x) →
          (∀ n, s.store.suspended = some n →
            exec .arrayServe s = now { s.store with current := some (.erase n), suspended := none }) ∧
          (∀ before n rest, s.store.suspended = none → s.store.eraseList = before ++ n :: rest → n < 2 →
            (∀ x ∈ before, 2 ≤ x) → exec .arrayServe s = now { s.store with current := some (.erase n), eraseMs := 0 }) ∧
          (s.store.suspended = none → (∀ x ∈ s.store.eraseList, 2 ≤ x) → exec .arrayServe s = .next s)))))

/-- R158 and R148: a record whose last unit verifies stands in the array and in the index, the write position moves past it, its
closing account is dropped, and RECORD WRITTEN goes to the seller and the buyer. R160: a unit that fails makes the attempt a
void span: the failure count rises, the span that the walk of R172 reads joins the index as void, and the next unit moves past it. At
a third failure, or with a tag that does not read 00h, the sector is left FULL, or RELEASABLE, takes the retiring mark, and STORE
DEFECT goes to all. The record is programmed again at once where it has a place, in the same sector while it has room and fewer than
three failures, and waits for one at the head of the queue (assumption 55) otherwise; under the power-fail warning it is not (R170).
That an attempt which leaves no mark leaves no void span either is assumption 37. What the failing unit and the tag read as are operands of the command (assumption 17). -/
def Obligations.RecordProgramsEnd : Prop :=
  ∀ (r : PeriodRecord) (sector start : Nat) (s : State), s.store.current = some (.record r sector start) →
    let settled : Contract := { s.contract r.contract with closing := none }
    exec .recordProgramDone s = .next
      (({ s with
          store := { s.store with
            cells := programBytes s.store.cells (sector * 4096 + start * 32) r.bytes
            nextUnit := start + r.units
            index := s.store.index ++ [⟨sector, start, r.units,
              some ⟨r.contract.val, r.account.period, r.seller, r.buyer, r.sequence, false, false⟩⟩]
            current := none }
          billing := { s.billing with contracts := s.billing.contracts.set r.contract settled } } : State).post
        [s.img.seller r.contract, s.img.buyer r.contract] .recordWritten r.contract.val
        (BitVec.ofNat 32 r.account.period) sector start) ∧
    ∀ unit left tag, unit < r.units →
      programFails s.store.cells (sector * 4096 + start * 32 + 32 * unit) (r.bytes.drop (32 * unit)) left = true →
      let cells := failedCells s.store.cells (sector * 4096 + start * 32) r.bytes unit left tag
      let st := s.store.voidAttempt sector start cells
      let run := exec (.recordUnitFail unit left tag) s
      let retires := 3 ≤ (st.sector sector).fails ∨ readCell cells (sector * 4096 + start * 32) ≠ 0x00#8
      let retired := st.retire sector
      let posted : State := ({ s with store := retired } : State).post allParties .storeDefect sector 1#32
      st.cells = cells ∧ (st.sector sector).fails = min 3 ((s.store.sector sector).fails + 1) ∧
      (st.sector sector).state = (s.store.sector sector).state ∧ st.current = none ∧
      (∀ n, unitSpan cells sector start = some n →
        st.index = s.store.index ++ [⟨sector, start, n, none⟩] ∧ st.nextUnit = start + n) ∧
      (unitSpan cells sector start = none → st.index = s.store.index ∧ st.nextUnit = start) ∧
      (st.writeSector = sector → 10 ≤ sector → sector ≤ 63 → retired.sector sector =
        ⟨if st.allReleased sector then .releasable else .full, true, (st.sector sector).fails⟩) ∧
      (¬retires →
        (s.store.pfw = true → run = .next { s with store := st }) ∧
        (∀ again, s.store.pfw = false → st.writeSector = sector → st.place r.units = some (sector, again) →
          run = .next { s with store := { st with current := some (.record r sector again) } }) ∧
        (∀ n first, s.store.pfw = false → st.place r.units = some (n, first) →
          ∃ t, run = .next t ∧ t.store.current = some (.record r n first) ∧ t.store.writeSector = n ∧ t.ports = s.ports) ∧
        (s.store.pfw = false → st.place r.units = none →
          run = .next { s with store := { st with queue := .record r :: st.queue } })) ∧
      (retires →
        (s.store.pfw = true → run = .next posted) ∧
        (∀ n first, s.store.pfw = false → retired.place r.units = some (n, first) →
          ∃ t, run = .next t ∧ t.store.current = some (.record r n first) ∧ t.store.writeSector = n ∧
            t.ports = posted.ports ∧ t.billing = s.billing) ∧
        (s.store.pfw = false → retired.place r.units = none →
          run = .next { posted with store := { retired with queue := .record r :: retired.queue } }))

/-- R163 and R169: an erase that verifies makes a record sector ERASED (RETIRED when it is retiring, FILLING when it holds the write
position) with no failures and every byte FFh; one that fails makes it RETIRED, with STORE DEFECT to all three parties; a checkpoint
sector becomes ERASED or RETIRED alike.
What the sector reads after the erase is an operand of the command (assumption 17). That a RETIRED sector carries no retiring mark
(assumption 19) and that the write sector is then filled from unit 0 (assumption 53) are the model's choices. -/
def Obligations.ErasesEnd : Prop :=
  (∀ (n : Nat) (left : List Byte) (s : State), s.store.current = some (.erase n) → 10 ≤ n → n ≤ 63 →
    ∃ t, exec (.sectorEraseDone left) s = .next t ∧ t.store.current = none ∧ t.station = s.station ∧ t.billing = s.billing ∧
      (s.store.writeSector ≠ n → t.store.nextUnit = s.store.nextUnit) ∧
      ((left.take 4096).all (fun b => b == 0xFF#8) = true →
        (Cells.wf s.store.cells = true → ∀ x, n * 4096 ≤ x → x < (n + 1) * 4096 → readCell t.store.cells x = 0xFF#8) ∧
        t.ports = s.ports ∧ (s.store.writeSector = n → t.store.nextUnit = 0) ∧
        t.store.sector n =
          (if (s.store.sector n).retiring then ⟨.retired, false, 0⟩
            else if s.store.writeSector = n then ⟨.filling, false, 0⟩ else ⟨.erased, false, 0⟩)) ∧
      ((left.take 4096).all (fun b => b == 0xFF#8) = false →
        t.ports = (s.post allParties .storeDefect n 2#32).ports ∧
        (t.store.sector n).state = .retired ∧ (t.store.sector n).retiring = false)) ∧
  (∀ (n : Nat) (left : List Byte) (s : State), s.store.current = some (.erase n) → 2 ≤ n → n < 10 →
    let st (x : CkptSector) : State := { s with store := { s.store with
      current := none, eraseMs := 0, eraseList := s.store.eraseList.filter fun m => m != n
      ckpts := s.store.ckpts.set (Fin.ofNat 8 (n - 2)) x } }
    exec (.sectorEraseDone left) s = .next (
      if (left.take 4096).all (fun b => b == 0xFF#8) then st ⟨.erased, .blank⟩
      else (st ⟨.retired, .bad none⟩).post allParties .storeDefect n 2#32))

/-- R16, R18 and R167: a configuration program that verifies puts the image in force for restarts and lists the other sector for
erase; one that fails ends the commit, with STORE DEFECT and the third APPROVE refused STATE. When the other sector's
erase ends, verified or not, the station enters OPERATING under the new image, and the third APPROVE completes OK; an erase that
fails comes with STORE DEFECT, and a comparison window at its 60th tick is judged under the old image first (R38, R41). R18: a slot
whose kind changed becomes NEVER, any other stays; the window of a stream whose kind, main or check input changed starts again and is
not DOUBTFUL; an entry that becomes absent is OUT at 0, one that becomes present READY at 0 with id 0, no cap and PARKED clear; one
that stays takes the new limits, with its cap lowered to the new maximum, and settles at its confirmed grant when its operating party
changed.
What a failing unit reads as is an operand of the command (assumption 17); the order of these notices is assumption 5. -/
def Obligations.CommitsRunToTheirEnd : Prop :=
  (∀ (sector generation : Nat) (image : Image) (c : Commit) (s : State),
    s.store.current = some (.config sector generation image) → s.station.commit = some c →
    (1 - sector ∉ s.store.eraseList → exec (.configProgramDone none) s = .next { s with
      station := { s.station with commit := some { c with phase := .erasingOther } }
      store := { s.store with
        cells := programBytes s.store.cells (sector * 4096) (imageBytes generation image)
        current := none, imageSector := some sector, eraseList := s.store.eraseList ++ [1 - sector] } }) ∧
    ∀ unit left, unit < 59 →
      programFails s.store.cells (sector * 4096 + 32 * unit) ((imageBytes generation image).drop (32 * unit)) left = true →
      ∃ t, exec (.configProgramDone (some (unit, left))) s = .next t ∧
        t.station = { s.station with commit := none, approvals := Table.replicate 3 false } ∧
        (t.port c.approver).slot = .ready ⟨(s.port c.approver).dropped, .state, []⟩ ∧
        (∀ q, (t.port q).queue = ((s.post allParties .storeDefect sector 1#32).port q).queue) ∧
        t.store.imageSector = s.store.imageSector ∧ t.store.current = none) ∧
  (∀ (n : Nat) (left : List Byte) (c : Commit) (s : State), s.store.current = some (.erase n) → n < 2 →
    s.station.commit = some c → c.phase = .erasingOther → c.target ≠ n → s.fiscal.tick = none →
    s.station.state = .reconfiguring →
    let new := s.editImage
    ∃ t, exec (.sectorEraseDone left) s = .next t ∧ t.station.state = .operating ∧
      t.station.inForce = some ⟨s.nextGeneration, new⟩ ∧ t.station.edit = none ∧ t.station.commit = none ∧
      t.station.approvals = Table.replicate 3 false ∧
      (t.port c.approver).slot = .ready ⟨(s.port c.approver).dropped, .ok, []⟩ ∧
      (let told := if (left.take 4096).all (fun b => b == 0xFF#8) then s else s.post allParties .storeDefect n 2#32
       ∀ q, (t.port q).queue = (told.endWindows.port q).queue) ∧
      t.clock = { s.clock with frameTimer := some (0, new.frameLength) } ∧ t.fiscal = s.fiscal ∧ t.decls = s.decls ∧
      t.tracker = s.tracker ∧ t.billing = s.billing ∧
      t.pulses.inputs = s.pulses.inputs ∧ t.sensor.queue = s.sensor.queue ∧
      (∀ i, t.sensor.slots.get i = if s.img.slotKind i = new.slotKind i then s.sensor.slots.get i
        else ⟨.never, none, none, 0, false, none, false⟩) ∧
      (∀ i, t.pulses.windows.get i = if s.img.streamKind i = new.streamKind i ∧ s.img.mainInput i = new.mainInput i ∧
          s.img.checkInput i = new.checkInput i then s.endWindows.pulses.windows.get i else ⟨0, 0, 0, false⟩) ∧
      ∀ e,
        let old := s.consumer e
        let limited : Consumer := { old with
          limits := new.limits e, cap := old.cap.map fun k => min k (new.limits e).maximum }
        (new.operator e = none → (t.consumer e).state = .out ∧ (t.consumer e).confirmed = 0 ∧
          (t.consumer e).pending = none ∧ (t.consumer e).parked = false) ∧
        (∀ q, s.img.operator e = none → new.operator e = some q →
          t.consumer e = ⟨.ready, new.limits e, 0, none, none, 0, 0, 0, none, false⟩) ∧
        ∀ p q, s.img.operator e = some p → new.operator e = some q →
          (p = q → t.consumer e = limited) ∧
          (p ≠ q → t.consumer e = { limited with
            state := if old.confirmed = 0 then .ready else .running, pending := none, retry := 0, timer := 0 }))

/-- R17: when the commit's last erase ends in BLANK, the station starts: time 0, a valid clock, every figure 0, every slot NEVER,
every declaration FALLBACK, every present consumer READY at 0 with id 0, no cap and PARKED clear, the counters at their first values,
under the committed image. Pulse counts are 0, check windows start and none is DOUBTFUL; each rank's pointer stands at its lowest
present entry (0 with none: R95). The running interval is that of time 0, with N 0, marked CARRIED (R131). R17, R135: each PRICED
contract has its commissioning tariff, with identities from 1 in ascending contract index and degraded prices fixed, and the counter
holds the last. Period 1 opens at 0 and runs to B1, the earliest time above (P − 1) × 86,400 whose time of day is the start hour
(R133). R152: with no staged change and no closing account.
The sector's bytes after the erase are an operand of the command (assumption 17). -/
def Obligations.CommitFromBlankStartsTheStation : Prop :=
  ∀ (n : Nat) (left : List Byte) (c : Commit) (s : State), s.store.current = some (.erase n) → n < 2 →
    s.station.commit = some c → c.phase = .erasingOther → c.target ≠ n → s.fiscal.tick = none →
    s.station.state = .blank →
    let new := s.editImage
    ∃ t, exec (.sectorEraseDone left) s = .next t ∧ t.station.state = .operating ∧
      t.station.inForce = some ⟨s.nextGeneration, new⟩ ∧ t.clock.time = 0 ∧ t.clock.domain = 0 ∧ t.clock.valid = true ∧
      t.clock.suspect = false ∧ t.clock.frameTimer = some (0, new.frameLength) ∧ t.clock.ckptTicks = 0 ∧
      (∀ i, t.fiscal.streams.get i = ⟨0, 0, 0, 0, 0, 0, none⟩) ∧
      (∀ i, (t.sensor.slots.get i).state = .never) ∧ t.sensor.queue = [] ∧
      (∀ d, (t.decls.get d).state = .fallback) ∧ t.alloc.frameNumber = 0 ∧ t.alloc.band = .normal ∧ t.alloc.flare = 0 ∧
      (∀ f, t.alloc.flags.get f = ⟨false, none⟩) ∧
      (∀ e, (new.operator e ≠ none → t.consumer e = ⟨.ready, new.limits e, 0, none, none, 0, 0, 0, none, false⟩) ∧
        (new.operator e = none → (t.consumer e).state = .out ∧ (t.consumer e).confirmed = 0)) ∧
      (∀ r,
        let member (e : Fin 12) : Prop := new.operator e ≠ none ∧ new.rank e = r.val
        (∀ e, member e → (∀ x, x < e → ¬member x) → t.alloc.pointers.get r = e) ∧
        ((∀ e, ¬member e) → t.alloc.pointers.get r = 0)) ∧
      (∀ j, t.pulses.inputs.get j = ⟨0, none, none, none, 0⟩) ∧ (∀ i, t.pulses.windows.get i = ⟨0, 0, 0, false⟩) ∧
      t.tracker = ⟨new.dayOffset / new.intervalLength, 0, true, false, 0, false, none, []⟩ ∧
      (let priced := (List.finRange 4).filter fun k => !new.isRecord k
       t.billing.counter = priced.length ∧
       ∀ k,
        let now := t.contract k
        let first := (new.periodDays k - 1) * 86400
        now.period = 1 ∧ now.staged = none ∧ now.closing = none ∧
        now.tariff = (if new.isRecord k then none else
          some ⟨(priced.filter fun d => decide (d ≤ k)).length,
            (new.bands k).map fun b => ⟨b, b.price * new.percentage k / 100⟩, new.percentage k⟩) ∧
        now.opened = { Account.empty with
          period := 1, start := 0, finish := now.nextBoundary, identity := (now.tariff.map Tariff.identity).getD 0
          bandCount := (now.tariff.map fun x => x.bands.length).getD 1 } ∧
        (new.startHour k < 24 → first < now.nextBoundary ∧ now.nextBoundary ≤ first + 86400 ∧
          (now.nextBoundary + new.dayOffset) % 86400 = new.startHour k * 3600)) ∧
      (∀ p, (t.port p).filter = new.defaultFilter p) ∧ (t.port c.approver).slot =
        .ready ⟨(s.port c.approver).dropped, .ok, []⟩

/-- R168 and R169: a periodic checkpoint that is due is gathered and joins the array queue, and is passed over while the one before is
outstanding; one whose last unit verifies is HELD and the new j, warned when the power-fail warning stands (R170), and each of the
two sectors after it in the ring, RETIRED ones skipped, that is not ERASED joins the erase list; one that fails is abandoned.
That a checkpoint is gathered in one event and held as figures is the model's choice (assumption 11), and so is that one being
served, or waiting for a tick, counts as outstanding (assumption 18). -/
def Obligations.CheckpointsAreGatheredAndHeld : Prop :=
  (∀ s : State, s.blocksRun = true → s.store.pfw = false → 900 ≤ s.clock.ckptTicks →
    (s.store.ckptOutstanding = true → exec .periodicCheckpoint s =
      .next { s with clock := { s.clock with ckptTicks := s.clock.ckptTicks - 900 } }) ∧
    (s.store.ckptOutstanding = false → s.fiscal.tick = none → s.store.current = none →
      exec .periodicCheckpoint s = .next { s with
        clock := { s.clock with ckptTicks := 0 }
        store := { s.store with queue := s.store.queue ++ [.checkpoint (s.gather false)] } })) ∧
  (∀ (c : Checkpoint) (n : Nat) (s : State), s.store.current = some (.checkpoint c n) → 2 ≤ n → n < 10 →
    (∃ t, exec (.checkpointProgramDone none) s = .next t ∧ t.store.current = none ∧ t.store.lastCkpt = n ∧
      t.store.ckptSequence = s.store.ckptSequence + 1 ∧
      t.store.ckpts.get (Fin.ofNat 8 (n - 2)) = ⟨.held, .good c s.store.pfw⟩ ∧ t.store.cells = s.store.cells ∧
      t = { s with store := t.store } ∧ t.store.queue = s.store.queue ∧ t.store.index = s.store.index ∧
      (let at_ (m : Nat) : CkptSector := s.store.ckpts.get (Fin.ofNat 8 (m - 2))
       let after := (((List.range 7).map fun k => 2 + (n - 2 + 1 + k) % 8).filter fun m =>
         decide ((at_ m).state ≠ .retired)).take 2
       t.store.eraseList = s.store.eraseList ++
         after.filter (fun m => decide ((at_ m).state ≠ .erased) && !s.store.eraseList.contains m) ∧
       ∀ m, 2 ≤ m → m < 10 → m ≠ n → t.store.ckpts.get (Fin.ofNat 8 (m - 2)) =
         if m ∈ after ∧ (at_ m).state ≠ .erased then { at_ m with state := .erasing } else at_ m)) ∧
    ∀ sequence, exec (.checkpointProgramDone (some sequence)) s = .next { s with store := { s.store with
      ckpts := s.store.ckpts.set (Fin.ofNat 8 (n - 2)) ⟨.held, .bad sequence⟩, current := none } })

/-- R170: the power-fail warning in OPERATING or RECONFIGURING empties the array queue and the erase list, notes an erase as abandoned,
and gathers the emergency checkpoint unless a checkpoint program is being served; a configuration program is abandoned and leaves
its sector DAMAGED (R167); a second assertion does nothing, and one in STARTING or BLANK begins no checkpoint.
What an assertion does in STARTING and BLANK is the model's choice (assumption 12), and so is what an abandoned erase leaves (17). -/
def Obligations.PowerFailWarningGathersTheCheckpoint : Prop :=
  ∀ (torn : Torn) (s : State), s.board.mainOn = true →
    (s.store.pfw = true → exec (.pfw torn) s = .next s) ∧
    (s.store.pfw = false → s.settled = false →
      exec (.pfw torn) s = .next { s with store := { s.store with pfw := true } }) ∧
    (s.store.pfw = false → s.settled = true →
      ∃ t, exec (.pfw torn) s = .next t ∧ t.store.pfw = true ∧ t.store.eraseList = [] ∧ t.store.suspended = none ∧
        t.store.abandoned = s.store.erasing ∧ t.station = s.station ∧ t.ports = s.ports ∧
        (∀ sector generation image, s.store.current = some (.config sector generation image) → sector < 2 →
          Cells.wf s.store.cells = true → sectorBlank s.store.cells sector = true → s.store.suspended ≠ some sector →
          generation ≤ 4294967294 →
          t.store.current = none ∧ classifyConfig t.store.cells sector = .damaged) ∧
        (s.store.servesCkpt = true → t.store.queue = [] ∧ t.store.current = s.store.current) ∧
        (s.store.servesCkpt = false → s.fiscal.tick = none → t.clock.ckptTicks = 0 ∧
          ∃ c, t.store.queue = [.checkpoint c] ∧ c.emergency = true ∧ c.sequence = s.store.ckptSequence + 1 ∧
            c.time = s.clock.time ∧ c.label = s.clock.lastLabel ∧ c.billing = s.billing ∧
            ∀ i, (c.streams.get i).total = (s.fiscal.streams.get i).total ∧
              (c.streams.get i).residual = (s.fiscal.streams.get i).residual))

/-! ### Station time and restart -/

/-- R180: ADJUST TIME holds a step pending, and applies the smaller step of a pair of one sign, clamped to the current interval, with
the pending steps and the clock-suspect mark cleared and TIME ADJUSTED to all; it never moves station time out of its
interval. The partner of a step is another party whose pending step has its sign; the adjustment names the two.
Where that move would pass 4,294,967,295, the new station time is a free value from the old one up to there (assumption 65).
The widths of the data's fields are the model's choice (assumption 8), and so is which of two such parties is taken (40). -/
def Obligations.TimeIsAdjustedInsideTheInterval : Prop :=
  (∀ (p : Party) (step : Int) (s : State), Serves s p →
    let put (x : Option PendingStep) : State := { s with clock := { s.clock with
      adjustments := s.clock.adjustments.set (partyIndex p) x } }
    (step < -60 ∨ 60 < step → exec (.adjustTime p step) s = .next (answered s p .range [])) ∧
    (step = 0 → exec (.adjustTime p step) s = .next (answered (put none) p .ok [])) ∧
    (step ≠ 0 → -60 ≤ step → step ≤ 60 → s.partner p step = none →
      exec (.adjustTime p step) s = .next (answered (put (some ⟨step, s.clock.time⟩)) p .ok [0x01#8])) ∧
    ∀ q other, step ≠ 0 → -60 ≤ step → step ≤ 60 → s.partner p step = some (q, other) → 0 < s.img.intervalLength →
      let requested := if 0 < step then min step other else max step other
      let moved := (s.clock.time : Int) + requested
      let clamped : Int := if 0 < requested then min moved (s.intervalEnd - 1) else max moved (max s.intervalStart 0)
      ∃ (time : Int) (t : State), (clamped ≤ 4294967295 → time = clamped) ∧
        (4294967295 < clamped → 0 < requested → (s.clock.time : Int) ≤ time ∧ time ≤ max s.clock.time 4294967295) ∧
        (requested < 0 → time = clamped) ∧ exec (.adjustTime p step) s = .next (answered t p
          (if time = moved then .ok else .clamped) (beInt 1 (time - s.clock.time) ++ be 4 time.toNat)) ∧
        (t.clock.time : Int) = time ∧ t.clock.domain = t.clock.time ∧ t.clock.suspect = false ∧
        t.clock.adjustments = Table.replicate 3 none ∧
        (∃ a, t.clock.lastAdjustment = some a ∧ a.requested = requested ∧ a.applied = time - s.clock.time ∧
          a.time = t.clock.time ∧ (a.first = p ∧ a.second = q ∨ a.first = q ∧ a.second = p)) ∧
        (∀ r, t.port r = (s.port r).arrive ⟨.timeAdjusted, 0, time.toNat, BitVec.ofInt 32 (time - s.clock.time), false,
          if time = moved then 0 else 1, 0⟩) ∧
        t.tracker = s.tracker ∧ t.billing = s.billing ∧ t.fiscal = s.fiscal) ∧
  (∀ (p : Party) (step : Int) (s : State),
    let pairs (q : Party) (other : Int) : Prop := q ≠ p ∧ (0 < step ∧ 0 < other ∨ step < 0 ∧ other < 0) ∧
      ∃ x, s.clock.adjustments.get (partyIndex q) = some x ∧ x.step = other
    (s.partner p step = none ↔ ∀ q other, ¬pairs q other) ∧
    ∀ q other, s.partner p step = some (q, other) → pairs q other) ∧
  (∀ (p : Party) (step : Int) (s t : State), 0 < s.img.intervalLength → exec (.adjustTime p step) s = .next t →
    intervalOf t.img t.clock.time = intervalOf s.img s.clock.time)

/-- R177 and R200: nRESET low stops the ports, and a low pulse shorter than 10 µs has no other effect; losing the main supply cuts the
array short, and a configuration program leaves its sector DAMAGED (R167); a failing backup supply loses the backup's validity only
while the main supply is absent. While it is absent, a boundary raises the time the backup domain counts as long as its validity
holds, and ends the second of the tick timer.
What a cut leaves elsewhere in the array is an operand of the command (assumption 17); what nRESET low stops is assumption 13, and
the tick timer in an outage assumption 14. -/
def Obligations.PinsAndSupplies : Prop :=
  ∀ (s : State) (held : Nat) (torn : Torn),
    (exec .resetAssert s = .next { s with board := { s.board with resetLow := true } } ∧
      ∀ p c r, requestSent c = some (p, r) →
        exec c { s with board := { s.board with resetLow := true } } =
          .next { s with board := { s.board with resetLow := true } }) ∧
    (held < 10 → exec (.resetRelease held torn) s = .next { s with board := { s.board with resetLow := false } }) ∧
    (s.board.mainOn = true → exec (.mainSupplyLoss torn) s = .next { s with
      board := { s.board with mainOn := false }, store := s.store.tear torn }) ∧
    (∀ sector generation image, s.store.current = some (.config sector generation image) → sector < 2 →
      Cells.wf s.store.cells = true → sectorBlank s.store.cells sector = true → s.store.suspended ≠ some sector →
      generation ≤ 4294967294 →
      (s.store.tear torn).current = none ∧ classifyConfig (s.store.tear torn).cells sector = .damaged) ∧
    (s.board.mainOn = false → s.clock.valid = true → s.clock.domain < 4294967295 → exec .tickBoundary s =
      .next { s with clock := { s.clock with domain := s.clock.domain + 1, phase := 0 } }) ∧
    (s.board.mainOn = false → s.clock.valid = false → exec .tickBoundary s = .next s) ∧
    (s.board.mainOn = false → exec .backupSupplyFail s = .next { s with clock := { s.clock with valid := false } }) ∧
    (s.board.mainOn = true → exec .backupSupplyFail s = .next s)

/-- R6, R183, R184 and R199: nRESET released after at least 10 µs, and the return of the main supply, begin a restart: the station is
STARTING with the image the configuration sectors hold and no edit image, approval or commit; ports are IDLE and empty with
that image's filters; declarations are FALLBACK; and with an image and a good checkpoint the streams resume from it. R171: a commit
from BLANK is to target sector 0, or sector 1 where that alone is DAMAGED. R177: with an image the backup domain is Valid when its
validity is set and its time at or above the checkpoint's label, 0 without a checkpoint: then time and clock-suspect mark stand. It is
Lost with validity clear, Behind with a lower time: then the time is the label and the mark is set there (R178), and the resume point
is the label (R186). R185: a restored closing account is dropped when the index holds a valid record of its contract and period, and
otherwise stays with a record program waiting in the array queue.
What a cut leaves in the array is an operand of the command (assumption 17); backup and figures at a restart: assumptions 14 and 39. -/
def Obligations.RestartsEnterStarting : Prop :=
  ∀ (s : State) (c : Instr) (st : Store),
    (∃ held torn, c = .resetRelease held torn ∧ 10 ≤ held ∧ s.board.resetLow = true ∧ s.board.mainOn = true ∧
      st = s.store.tear torn) ∨ (c = .powerReturn ∧ s.board.mainOn = false ∧ st = s.store) →
    ∃ t r, exec c s = .next t ∧ t.station.state = .starting ∧ t.station.inForce = (foundImage st.cells).map Prod.snd ∧
      t.station.edit = none ∧ t.station.commit = none ∧ t.station.approvals = Table.replicate 3 false ∧
      t.board.mainOn = true ∧ t.startup = some r ∧ r.toBlank = (foundImage st.cells).isNone ∧
      (∀ p, (t.port p).slot = .idle ∧ (t.port p).queue = [] ∧ (t.port p).halfArmed = true ∧ (t.port p).dropping = false ∧
        (t.port p).filter = (match foundImage st.cells with
          | some (_, x) => x.image.defaultFilter p
          | none => 0x00FFFFFE#32)) ∧
      (∀ d, t.decls.get d = ⟨.fallback, none, 0, false⟩) ∧ t.sensor.queue = [] ∧ t.sensor.linkUp = true ∧
      t.store.cells = st.cells ∧ t.store.imageSector = (foundImage st.cells).map Prod.fst ∧
      t.store.blankTarget =
        (if classifyConfig st.cells 1 = .damaged ∧ classifyConfig st.cells 0 ≠ .damaged then 1 else 0) ∧
      (let label := ((foundCheckpoint st).map fun f => f.checkpoint.label).getD 0
       (foundImage st.cells).isSome = true → r.label = label ∧
         (s.clock.valid = true → label ≤ s.clock.domain → r.backup = some .valid ∧ t.clock.time = s.clock.domain ∧
           t.clock.domain = s.clock.domain ∧ t.clock.valid = true ∧ t.clock.suspect = s.clock.suspect ∧
           t.clock.suspectAt = s.clock.suspectAt ∧ r.resume = none) ∧
         (s.clock.valid = false ∨ s.clock.domain < label →
           r.backup = some (if s.clock.valid then .behind else .lost) ∧ t.clock.time = label ∧ t.clock.domain = label ∧
           t.clock.valid = true ∧ t.clock.suspect = true ∧ t.clock.suspectAt = label ∧ r.resume = some label)) ∧
      ∀ f, (foundImage st.cells).isSome = true → foundCheckpoint st = some f →
        (∀ k : Fin 4,
          let kept := (f.checkpoint.billing.contracts.get k).closing
          (kept = none → (t.contract k).closing = none) ∧
          ∀ a, kept = some a →
            (t.store.holdsRecord k.val a.period = true → (t.contract k).closing = none) ∧
            (t.store.holdsRecord k.val a.period = false → (t.contract k).closing = some a ∧
              ∃ seq, ArrayOp.record ⟨k, t.img.isRecord k, partyCode (t.img.seller k), partyCode (t.img.buyer k), seq, a⟩ ∈
                t.store.queue)) ∧
        r.label = f.checkpoint.label ∧ t.alloc.frameNumber = f.checkpoint.frameNumber ∧
        (∀ i, (t.fiscal.streams.get i).total = (f.checkpoint.streams.get i).total ∧
          (t.fiscal.streams.get i).residual = (f.checkpoint.streams.get i).residual ∧
          (t.fiscal.streams.get i).frameSum = 0) ∧
        ∀ i, (t.sensor.slots.get i).lastGood = f.checkpoint.lastGood.get i ∧
          (t.sensor.slots.get i).state = (if (f.checkpoint.lastGood.get i).isSome then .substituted else .never)

/-- R187: departure ends STARTING: to OPERATING at the resume point with its frame timer and checkpoint count started, or to BLANK with
the factory defaults as the edit image and no valid time; and the first notice of every port is RESTARTED. R186 and R188: before
it, the first boundary of STARTING with a restored image and no resume point fixes that point, and catches up to it from the label
of the checkpoint. Catch-up marks the running interval OUTAGE and every open account UNWARNED, unless the checkpoint was warned. It
passes each interval boundary in turn: the seconds since the point before are added to the outage seconds of every open account,
which takes the OUTAGE flag (R151); the interval closes into the account of the RECORD contract and the next begins, also marked
OUTAGE (R128); and the contracts take the boundary; the seconds after the last one are added alike.
The marks of RESTARTED at a restart to BLANK (assumption 38), and that the resume point counts as the label of the last tick
(assumption 16), are the model's choices. -/
def Obligations.DepartureEndsStarting : Prop :=
  (∀ (s : State) (r : Restarting), s.board.mainOn = true → s.startup = some r → (∀ p, (s.port p).queue = []) →
    (∀ p, (s.port p).dropping = false) →
    (∀ resume, r.toBlank = false → r.resume = some resume →
      ∃ t, exec .departure s = .next t ∧ t.station = { s.station with state := .operating } ∧ t.startup = none ∧
        t.clock = { s.clock with
          frameTimer := some (0, s.img.frameLength), ckptTicks := 0
          lastRestart := some ⟨r.cause, r.warned, r.noCheckpoint, r.backup, r.sequence, r.label, resume,
            resume - r.label⟩ } ∧
        t.fiscal = s.fiscal ∧ t.billing = s.billing ∧ t.store = s.store ∧
        ∀ p, (t.port p).queue = [⟨.restarted, 1, resume, BitVec.ofNat 32 (resume - r.label), s.clock.suspect,
          (if r.warned then 0 else 1) + (if r.noCheckpoint then 2 else 0), r.cause.code⟩]) ∧
    (r.toBlank = true →
      ∃ t, exec .departure s = .next t ∧
        t.station = { s.station with state := .blank, edit := some Image.factory } ∧ t.startup = none ∧
        t.clock.valid = false ∧ t.clock.time = 0 ∧
        ∀ p, (t.port p).queue = [⟨.restarted, 0, 0, 0#32, s.clock.suspect,
          (if r.warned then 0 else 1) + (if r.noCheckpoint then 2 else 0), r.cause.code⟩])) ∧
  (∀ (s : State) (r : Restarting), s.board.mainOn = true → s.station.state = .starting → s.startup = some r →
    r.toBlank = false → r.resume = none → s.clock.domain < 4294967295 →
    let resume := s.clock.domain + 1
    ∃ u : State, exec .tickBoundary s = .next (u.catchUp r.label resume r.warned) ∧ u.clock.time = resume ∧
      u.clock.domain = resume ∧ u.clock.lastLabel = resume ∧ u.startup = some { r with resume := some resume } ∧
      u.station = s.station ∧ u.ports = s.ports ∧ u.billing = s.billing ∧ u.tracker = s.tracker ∧ u.alloc = s.alloc ∧
      u.fiscal = s.fiscal ∧ u.sensor = s.sensor ∧ u.decls = s.decls) ∧
  (∀ (u : State) (label resume : Nat), label ≤ resume → 0 < u.img.intervalLength → u.settled = false →
    let out (seconds : Nat) (a : Account) : Account :=
      { a with outageSeconds := a.outageSeconds + seconds, outage := true }
    let accounts (f : Account → Account) : Billing :=
      { u.billing with contracts := u.billing.contracts.map fun k => { k with opened := f k.opened } }
    let boundary := ((label + u.img.dayOffset) / u.img.intervalLength + 1) * u.img.intervalLength - u.img.dayOffset
    u.catchUp label resume false =
      ({ u with billing := accounts fun a => { a with unwarned := true } } : State).catchUp label resume true ∧
    (resume < boundary → u.catchUp label resume true =
      { u with billing := accounts (out (resume - label)), tracker := { u.tracker with outage := true } }) ∧
    (boundary ≤ resume → ∃ w : State,
      u.catchUp label resume true = (w.takeBoundaries boundary).catchUp boundary resume true ∧ w.ports = u.ports ∧
      w.station = u.station ∧ w.clock = u.clock ∧ w.store = u.store ∧ w.alloc = u.alloc ∧
      w.tracker = { { u.tracker with outage := true }.beginNext with outage := true } ∧
      ∀ c, w.contract c =
        let k := u.contract c
        let a := out (boundary - label) k.opened
        let offset := u.tracker.running - (k.opened.start + u.img.dayOffset) / u.img.intervalLength
        let deviates : Bool := decide (u.tracker.n * u.img.tolerance / 100 < ((u.tracker.e : Int) - u.tracker.n).natAbs)
        if u.img.recordContract = some c then
          { k with opened := a.addInterval offset { u.tracker with outage := true } deviates }
        else { k with opened := a }))

/-! ### Reset, and what every step keeps -/

/-- What reset leaves, where the spec gives it: STARTING with no image, empty IDLE ports with every kind admitted and the half mark
armed (R199, R195), FALLBACK declarations (R66), clear flags (R71), NEVER slots with the link UP (R35), totals of 0 (R59), an
empty index with the write position at the ring's start (R173); and the invariants below hold there.
That reset finds an erased array, and the values the spec gives none for, are the model's choice (assumptions 1 and 2). -/
def Obligations.ResetLeavesThePartStarting : Prop :=
  State.reset.station.state = .starting ∧ State.reset.station.inForce = none ∧
  (∀ p, State.reset.port p = ⟨.idle, false, [], true, false, 0x00FFFFFE#32, []⟩) ∧
  (∀ d, State.reset.decls.get d = ⟨.fallback, none, 0, false⟩) ∧
  (∀ f, State.reset.alloc.flags.get f = ⟨false, none⟩) ∧ (∀ i, (State.reset.sensor.slots.get i).state = .never) ∧
  State.reset.sensor.linkUp = true ∧ (∀ i, State.reset.fiscal.streams.get i = ⟨0, 0, 0, 0, 0, 0, none⟩) ∧
  State.reset.store.index = [] ∧ State.reset.store.writeSector = 10 ∧ State.reset.store.nextUnit = 0 ∧
  SensorWf State.reset ∧ PortsWf State.reset ∧ ConsumersWf State.reset ∧ GrantsWf State.reset ∧ FiguresWf State.reset ∧
  NominationsWf State.reset ∧ ArrayWf State.reset ∧ StationWf State.reset

/-- R196: every step keeps every notice queue in its form. -/
def Obligations.EveryStepKeepsTheNoticeQueues : Prop :=
  ∀ s t : State, PortsWf s → step s = .next t → PortsWf t

/-- R96 and R97: every step keeps a pending grant and a running timer to CHANGING, and every confirmed grant to its state. -/
def Obligations.EveryStepKeepsTheConsumers : Prop :=
  (∀ s t : State, ConsumersWf s → step s = .next t → ConsumersWf t) ∧
  (∀ s t : State, GrantsWf s → step s = .next t → GrantsWf t)

/-- R47: every step keeps totals and residuals below 10⁹, in the stream table and in every checkpoint held. R26 and R30: every step
keeps the reading queue within 16 records, and a last good value with its time in every FRESH slot. -/
def Obligations.EveryStepKeepsTheFigures : Prop :=
  (∀ s t : State, FiguresWf s → step s = .next t → FiguresWf t) ∧
  (∀ s t : State, SensorWf s → step s = .next t → SensorWf t)

/-- R118: every step keeps the nomination queue in strictly rising order within the eight intervals after the running one. -/
def Obligations.EveryStepKeepsTheNominations : Prop :=
  ∀ s t : State, NominationsWf s → step s = .next t → NominationsWf t

/-- R153: every step keeps the array in its canonical form.
The canonical form, and FFh at every byte no program has written, are the model's (assumption 1). -/
def Obligations.EveryStepKeepsTheArray : Prop :=
  ∀ s t : State, ArrayWf s → step s = .next t → ArrayWf t

/-- R6: no command moves the station between states but the ones R6 names: a restart to STARTING, a departure from it, the third
RECOMMISSION, and the end of a commit; and every step keeps a restart to STARTING and a commit to BLANK and RECONFIGURING.
A commit whose last erase ends while a tick is in integration ends with that integration (R41; assumption 27), which the next
boundary takes when no command has (assumption 5). -/
def Obligations.StationMovesOnlyAsAllowed : Prop :=
  ∀ (c : Instr) (s t : State), StationWf s → exec c s = .next t →
    StationMove c s.station.state t.station.state ∧ StationWf t
end

