-- ==== Sys2Proof/Laws/Cells.lean ====
section
/-! SUPPORT. The bytes of the array: every operation keeps the canonical form, and what one byte reads after each. -/

namespace Sys2Proof.Machine

/-- What the canonical form says of a list with a first entry. -/
theorem Cells.wf_cons (a : Nat) (v : Byte) (m : List Host.Cell) :
    Cells.wf ((a, v) :: m) = true ↔ v ≠ erasedByte ∧ (∀ c ∈ m, a < c.1) ∧ Cells.wf m = true := by
  simp [Cells.wf, List.all_eq_true, and_assoc]

theorem Cells.wf_nil : Cells.wf [] = true := rfl

theorem Cells.wf_tail {c : Host.Cell} {m : List Host.Cell} (h : Cells.wf (c :: m) = true) : Cells.wf m = true := by
  obtain ⟨a, v⟩ := c
  exact ((Cells.wf_cons a v m).1 h).2.2

/-- A write adds no address but its own. -/
theorem mem_writeCell {m : List Host.Cell} {a : Nat} {v : Byte} {c : Host.Cell} (h : c ∈ writeCell m a v) :
    c ∈ m ∨ c.1 = a := by
  induction m with
  | nil =>
    simp only [writeCell] at h
    split at h
    · simp at h
    · right; simp at h; simp [h]
  | cons d m ih =>
    obtain ⟨b, w⟩ := d
    simp only [writeCell] at h
    split at h
    · split at h
      · exact .inl h
      · rcases List.mem_cons.1 h with rfl | h
        · exact .inr rfl
        · exact .inl h
    · split at h
      · split at h
        · exact .inl (List.mem_cons_of_mem _ h)
        · rcases List.mem_cons.1 h with rfl | h
          · exact .inr rfl
          · exact .inl (List.mem_cons_of_mem _ h)
      · rcases List.mem_cons.1 h with rfl | h
        · exact .inl (List.mem_cons_self ..)
        · rcases ih h with h | h
          · exact .inl (List.mem_cons_of_mem _ h)
          · exact .inr h

/-- A write keeps the canonical form. -/
theorem writeCell_wf {m : List Host.Cell} (h : Cells.wf m = true) (a : Nat) (v : Byte) :
    Cells.wf (writeCell m a v) = true := by
  induction m with
  | nil =>
    simp only [writeCell]
    split
    · rfl
    · rename_i hv; simp [Cells.wf, hv]
  | cons d m ih =>
    obtain ⟨b, w⟩ := d
    obtain ⟨hw, hlt, hm⟩ := (Cells.wf_cons b w m).1 h
    simp only [writeCell]
    split
    · rename_i hab
      split
      · exact h
      · rename_i hv
        refine (Cells.wf_cons _ _ _).2 ⟨hv, ?_, h⟩
        intro c hc
        rcases List.mem_cons.1 hc with rfl | hc
        · exact hab
        · exact lt_trans hab (hlt c hc)
    · split
      · rename_i hab
        split
        · exact hm
        · rename_i hv
          exact (Cells.wf_cons _ _ _).2 ⟨hv, fun c hc => hab ▸ hlt c hc, hm⟩
      · refine (Cells.wf_cons _ _ _).2 ⟨hw, ?_, ih hm⟩
        intro c hc
        rcases mem_writeCell hc with hc | hc
        · exact hlt c hc
        · omega

/-- An address that no entry lists reads FFh. -/
theorem readCell_unlisted {m : List Host.Cell} {a : Nat} (h : ∀ c ∈ m, c.1 ≠ a) : readCell m a = erasedByte := by
  induction m with
  | nil => rfl
  | cons d m ih =>
    obtain ⟨b, w⟩ := d
    have hb : a ≠ b := fun e => h (b, w) (List.mem_cons_self ..) e.symm
    simp only [readCell, if_neg hb]
    exact ih fun c hc => h c (List.mem_cons_of_mem _ hc)

/-- What a byte reads after a write: the value at its address, the old byte elsewhere. -/
theorem readCell_writeCell {m : List Host.Cell} (h : Cells.wf m = true) (a : Nat) (v : Byte) (x : Nat) :
    readCell (writeCell m a v) x = if x = a then v else readCell m x := by
  induction m with
  | nil =>
    simp only [writeCell]
    split
    · rename_i hv; subst hv; simp [readCell]
    · simp [readCell]
  | cons d m ih =>
    obtain ⟨b, w⟩ := d
    obtain ⟨hw, hlt, hm⟩ := (Cells.wf_cons b w m).1 h
    simp only [writeCell]
    split
    · rename_i hab
      split
      · rename_i hv
        subst hv
        split
        · rename_i hx
          subst hx
          exact readCell_unlisted (by
            intro c hc
            rcases List.mem_cons.1 hc with rfl | hc
            · exact fun e => by simp at e; omega
            · have := hlt c hc; omega)
        · rfl
      · simp only [readCell]
    · split
      · rename_i hab
        subst hab
        split
        · rename_i hv
          subst hv
          split
          · rename_i hx
            subst hx
            exact readCell_unlisted fun c hc => by have := hlt c hc; omega
          · rename_i hx; simp [readCell, hx]
        · by_cases hx : x = a <;> simp [readCell, hx]
      · rename_i hab hne
        simp only [readCell, ih hm]
        by_cases hx : x = b
        · subst hx
          have : x ≠ a := fun e => hne e.symm
          simp [this]
        · simp [hx]

theorem writeBytes_wf {m : List Host.Cell} (h : Cells.wf m = true) (a : Nat) (bs : List Byte) :
    Cells.wf (writeBytes m a bs) = true := by
  induction bs generalizing m a with
  | nil => exact h
  | cons b bs ih => exact ih (writeCell_wf h a b) (a + 1)

/-- Bytes outside the written ones read as before. -/
theorem readCell_writeBytes_of_lt {m : List Host.Cell} (h : Cells.wf m = true) {a x : Nat} (bs : List Byte)
    (hx : x < a ∨ a + bs.length ≤ x) : readCell (writeBytes m a bs) x = readCell m x := by
  induction bs generalizing m a with
  | nil => rfl
  | cons b bs ih =>
    simp only [List.length_cons] at hx
    rw [writeBytes, ih (writeCell_wf h a b) (by omega), readCell_writeCell h, if_neg (by omega)]

theorem programBytes_wf {m : List Host.Cell} (h : Cells.wf m = true) (a : Nat) (bs : List Byte) :
    Cells.wf (programBytes m a bs) = true := by
  induction bs generalizing m a with
  | nil => exact h
  | cons b bs ih => exact ih (writeCell_wf h a _) (a + 1)

/-- What a byte reads after a program: inside, what it held with the written byte's zeros cleared; outside, as before
(R153). -/
theorem readCell_programBytes {m : List Host.Cell} (h : Cells.wf m = true) (a : Nat) (bs : List Byte) (x : Nat) :
    readCell (programBytes m a bs) x =
      if a ≤ x ∧ x < a + bs.length then readCell m x &&& bs.getD (x - a) erasedByte else readCell m x := by
  induction bs generalizing m a with
  | nil =>
    have : ¬(a ≤ x ∧ x < a + ([] : List Byte).length) := by simp
    rw [if_neg this]; rfl
  | cons b bs ih =>
    rw [programBytes, ih (writeCell_wf h a _) (a + 1), readCell_writeCell h]
    simp only [List.length_cons]
    by_cases hx : x = a
    · subst hx; simp
    · simp only [if_neg hx]
      by_cases hin : a + 1 ≤ x ∧ x < a + 1 + bs.length
      · have h2 : a ≤ x ∧ x < a + (bs.length + 1) := by omega
        obtain ⟨k, rfl⟩ : ∃ k, x = a + 1 + k := ⟨x - (a + 1), by omega⟩
        have e1 : a + 1 + k - (a + 1) = k := by omega
        have e2 : a + 1 + k - a = k + 1 := by omega
        rw [if_pos hin, if_pos h2, e1, e2]
        rfl
      · have h2 : ¬(a ≤ x ∧ x < a + (bs.length + 1)) := by omega
        rw [if_neg hin, if_neg h2]

theorem filter_wf {m : List Host.Cell} (h : Cells.wf m = true) (f : Host.Cell → Bool) :
    Cells.wf (m.filter f) = true := by
  induction m with
  | nil => rfl
  | cons d m ih =>
    obtain ⟨b, w⟩ := d
    obtain ⟨hw, hlt, hm⟩ := (Cells.wf_cons b w m).1 h
    rw [List.filter_cons]
    split
    · exact (Cells.wf_cons _ _ _).2 ⟨hw, fun c hc => hlt c (List.mem_filter.1 hc).1, ih hm⟩
    · exact ih hm

theorem eraseSector_wf {m : List Host.Cell} (h : Cells.wf m = true) (sector : Nat) :
    Cells.wf (eraseSector m sector) = true := filter_wf h _

/-- After an erase that verifies, every byte of the sector reads FFh (R153). -/
theorem readCell_eraseSector (m : List Host.Cell) (sector x : Nat)
    (hx : sectorBase sector ≤ x ∧ x < sectorBase (sector + 1)) : readCell (eraseSector m sector) x = erasedByte := by
  refine readCell_unlisted fun c hc => ?_
  have := (List.mem_filter.1 hc).2
  simp only [Bool.or_eq_true, decide_eq_true_eq] at this
  omega

/-- An erase leaves every other sector alone. -/
theorem readCell_eraseSector_outside (m : List Host.Cell) (sector x : Nat)
    (hx : x < sectorBase sector ∨ sectorBase (sector + 1) ≤ x) : readCell (eraseSector m sector) x = readCell m x := by
  induction m with
  | nil => rfl
  | cons d m ih =>
    obtain ⟨b, w⟩ := d
    simp only [eraseSector] at ih
    simp only [eraseSector, List.filter_cons]
    split
    · simp only [readCell, ih]
    · rename_i hb
      simp only [Bool.or_eq_true, decide_eq_true_eq] at hb
      have : x ≠ b := by omega
      simp only [readCell, if_neg this, ih]

theorem leaveSector_wf {m : List Host.Cell} (h : Cells.wf m = true) (sector : Nat) (left : List Byte) :
    Cells.wf (leaveSector m sector left) = true := writeBytes_wf (eraseSector_wf h sector) _ _

theorem tearUnit_wf {m : List Host.Cell} (h : Cells.wf m = true) (a : Nat) (written partly : List Byte) :
    Cells.wf (tearUnit m a written partly) = true := programBytes_wf h _ _

theorem tearProgram_wf {m : List Host.Cell} (h : Cells.wf m = true) (a : Nat) (written : List Byte) (k : Nat)
    (partly : List Byte) : Cells.wf (tearProgram m a written k partly) = true :=
  tearUnit_wf (programBytes_wf h _ _) _ _ _

/-- The erased array is in canonical form. -/
theorem erasedArray_wf : Cells.wf Store.erasedArray.cells = true := rfl

/-- Equal readings of canonical arrays make equal arrays. -/
theorem Cells.ext {m n : List Host.Cell} (hm : Cells.wf m = true) (hn : Cells.wf n = true)
    (h : ∀ x, readCell m x = readCell n x) : m = n := by
  induction m generalizing n with
  | nil =>
    cases n with
    | nil => rfl
    | cons d n =>
      obtain ⟨b, w⟩ := d
      have := ((Cells.wf_cons b w n).1 hn).1
      have hb := h b
      simp [readCell] at hb
      exact absurd hb.symm this
  | cons d m ih =>
    obtain ⟨a, v⟩ := d
    obtain ⟨hv, hlt, hm'⟩ := (Cells.wf_cons a v m).1 hm
    cases n with
    | nil =>
      have ha := h a
      simp [readCell] at ha
      exact absurd ha hv
    | cons e n =>
      obtain ⟨b, w⟩ := e
      obtain ⟨hw, hlt', hn'⟩ := (Cells.wf_cons b w n).1 hn
      have hab : a = b := by
        rcases Nat.lt_trichotomy a b with hab | hab | hab
        · have ha := h a
          have h2 : readCell ((b, w) :: n) a = erasedByte := readCell_unlisted (by
            intro c hc
            rcases List.mem_cons.1 hc with rfl | hc
            · exact fun e => by simp at e; omega
            · have := hlt' c hc; omega)
          simp only [readCell, if_pos] at ha h2
          rw [h2] at ha; exact absurd ha hv
        · exact hab
        · have hb := h b
          have h2 : readCell ((a, v) :: m) b = erasedByte := readCell_unlisted (by
            intro c hc
            rcases List.mem_cons.1 hc with rfl | hc
            · exact fun e => by simp at e; omega
            · have := hlt c hc; omega)
          simp only [readCell, if_pos] at hb h2
          rw [h2] at hb; exact absurd hb.symm hw
      subst hab
      have hvw : v = w := by simpa [readCell] using h a
      subst hvw
      rw [ih hm' hn' fun x => by
        by_cases hx : x = a
        · subst hx
          rw [readCell_unlisted fun c hc => by have := hlt c hc; omega,
            readCell_unlisted fun c hc => by have := hlt' c hc; omega]
        · simpa [readCell, hx] using h x]

end Sys2Proof.Machine
end

