-- ==== Sys2Proof/Laws/State.lean ====
section
/-! SUPPORT. What each update of the state leaves alone, and what it puts in the one field it changes: one lemma per field
per update, so that no later proof unfolds a record update. -/

namespace Sys2Proof.Machine

variable (s : State)

@[simp] theorem State.mapPort_pending (p : Party) (f : Port → Port) : (s.mapPort p f).pending = s.pending := rfl
@[simp] theorem State.mapPort_board (p : Party) (f : Port → Port) : (s.mapPort p f).board = s.board := rfl
@[simp] theorem State.mapPort_ports (p : Party) (f : Port → Port) : (s.mapPort p f).ports = s.ports.modify (partyIndex p) f := rfl
@[simp] theorem State.mapPort_station (p : Party) (f : Port → Port) : (s.mapPort p f).station = s.station := rfl
@[simp] theorem State.mapPort_sensor (p : Party) (f : Port → Port) : (s.mapPort p f).sensor = s.sensor := rfl
@[simp] theorem State.mapPort_pulses (p : Party) (f : Port → Port) : (s.mapPort p f).pulses = s.pulses := rfl
@[simp] theorem State.mapPort_fiscal (p : Party) (f : Port → Port) : (s.mapPort p f).fiscal = s.fiscal := rfl
@[simp] theorem State.mapPort_decls (p : Party) (f : Port → Port) : (s.mapPort p f).decls = s.decls := rfl
@[simp] theorem State.mapPort_alloc (p : Party) (f : Port → Port) : (s.mapPort p f).alloc = s.alloc := rfl
@[simp] theorem State.mapPort_tracker (p : Party) (f : Port → Port) : (s.mapPort p f).tracker = s.tracker := rfl
@[simp] theorem State.mapPort_billing (p : Party) (f : Port → Port) : (s.mapPort p f).billing = s.billing := rfl
@[simp] theorem State.mapPort_store (p : Party) (f : Port → Port) : (s.mapPort p f).store = s.store := rfl
@[simp] theorem State.mapPort_clock (p : Party) (f : Port → Port) : (s.mapPort p f).clock = s.clock := rfl
@[simp] theorem State.mapPort_startup (p : Party) (f : Port → Port) : (s.mapPort p f).startup = s.startup := rfl
@[simp] theorem State.mapPort_free (p : Party) (f : Port → Port) : (s.mapPort p f).free = s.free := rfl

@[simp] theorem State.mapSensor_pending (f : Sensor → Sensor) : (s.mapSensor f).pending = s.pending := rfl
@[simp] theorem State.mapSensor_board (f : Sensor → Sensor) : (s.mapSensor f).board = s.board := rfl
@[simp] theorem State.mapSensor_ports (f : Sensor → Sensor) : (s.mapSensor f).ports = s.ports := rfl
@[simp] theorem State.mapSensor_station (f : Sensor → Sensor) : (s.mapSensor f).station = s.station := rfl
@[simp] theorem State.mapSensor_sensor (f : Sensor → Sensor) : (s.mapSensor f).sensor = f s.sensor := rfl
@[simp] theorem State.mapSensor_pulses (f : Sensor → Sensor) : (s.mapSensor f).pulses = s.pulses := rfl
@[simp] theorem State.mapSensor_fiscal (f : Sensor → Sensor) : (s.mapSensor f).fiscal = s.fiscal := rfl
@[simp] theorem State.mapSensor_decls (f : Sensor → Sensor) : (s.mapSensor f).decls = s.decls := rfl
@[simp] theorem State.mapSensor_alloc (f : Sensor → Sensor) : (s.mapSensor f).alloc = s.alloc := rfl
@[simp] theorem State.mapSensor_tracker (f : Sensor → Sensor) : (s.mapSensor f).tracker = s.tracker := rfl
@[simp] theorem State.mapSensor_billing (f : Sensor → Sensor) : (s.mapSensor f).billing = s.billing := rfl
@[simp] theorem State.mapSensor_store (f : Sensor → Sensor) : (s.mapSensor f).store = s.store := rfl
@[simp] theorem State.mapSensor_clock (f : Sensor → Sensor) : (s.mapSensor f).clock = s.clock := rfl
@[simp] theorem State.mapSensor_startup (f : Sensor → Sensor) : (s.mapSensor f).startup = s.startup := rfl
@[simp] theorem State.mapSensor_free (f : Sensor → Sensor) : (s.mapSensor f).free = s.free := rfl

@[simp] theorem State.mapPulses_pending (f : Pulses → Pulses) : (s.mapPulses f).pending = s.pending := rfl
@[simp] theorem State.mapPulses_board (f : Pulses → Pulses) : (s.mapPulses f).board = s.board := rfl
@[simp] theorem State.mapPulses_ports (f : Pulses → Pulses) : (s.mapPulses f).ports = s.ports := rfl
@[simp] theorem State.mapPulses_station (f : Pulses → Pulses) : (s.mapPulses f).station = s.station := rfl
@[simp] theorem State.mapPulses_sensor (f : Pulses → Pulses) : (s.mapPulses f).sensor = s.sensor := rfl
@[simp] theorem State.mapPulses_pulses (f : Pulses → Pulses) : (s.mapPulses f).pulses = f s.pulses := rfl
@[simp] theorem State.mapPulses_fiscal (f : Pulses → Pulses) : (s.mapPulses f).fiscal = s.fiscal := rfl
@[simp] theorem State.mapPulses_decls (f : Pulses → Pulses) : (s.mapPulses f).decls = s.decls := rfl
@[simp] theorem State.mapPulses_alloc (f : Pulses → Pulses) : (s.mapPulses f).alloc = s.alloc := rfl
@[simp] theorem State.mapPulses_tracker (f : Pulses → Pulses) : (s.mapPulses f).tracker = s.tracker := rfl
@[simp] theorem State.mapPulses_billing (f : Pulses → Pulses) : (s.mapPulses f).billing = s.billing := rfl
@[simp] theorem State.mapPulses_store (f : Pulses → Pulses) : (s.mapPulses f).store = s.store := rfl
@[simp] theorem State.mapPulses_clock (f : Pulses → Pulses) : (s.mapPulses f).clock = s.clock := rfl
@[simp] theorem State.mapPulses_startup (f : Pulses → Pulses) : (s.mapPulses f).startup = s.startup := rfl
@[simp] theorem State.mapPulses_free (f : Pulses → Pulses) : (s.mapPulses f).free = s.free := rfl

@[simp] theorem State.mapInput_pending (pin : Fin 8) (f : PulseInput → PulseInput) : (s.mapInput pin f).pending = s.pending := rfl
@[simp] theorem State.mapInput_board (pin : Fin 8) (f : PulseInput → PulseInput) : (s.mapInput pin f).board = s.board := rfl
@[simp] theorem State.mapInput_ports (pin : Fin 8) (f : PulseInput → PulseInput) : (s.mapInput pin f).ports = s.ports := rfl
@[simp] theorem State.mapInput_station (pin : Fin 8) (f : PulseInput → PulseInput) : (s.mapInput pin f).station = s.station := rfl
@[simp] theorem State.mapInput_sensor (pin : Fin 8) (f : PulseInput → PulseInput) : (s.mapInput pin f).sensor = s.sensor := rfl
@[simp] theorem State.mapInput_fiscal (pin : Fin 8) (f : PulseInput → PulseInput) : (s.mapInput pin f).fiscal = s.fiscal := rfl
@[simp] theorem State.mapInput_decls (pin : Fin 8) (f : PulseInput → PulseInput) : (s.mapInput pin f).decls = s.decls := rfl
@[simp] theorem State.mapInput_alloc (pin : Fin 8) (f : PulseInput → PulseInput) : (s.mapInput pin f).alloc = s.alloc := rfl
@[simp] theorem State.mapInput_tracker (pin : Fin 8) (f : PulseInput → PulseInput) : (s.mapInput pin f).tracker = s.tracker := rfl
@[simp] theorem State.mapInput_billing (pin : Fin 8) (f : PulseInput → PulseInput) : (s.mapInput pin f).billing = s.billing := rfl
@[simp] theorem State.mapInput_store (pin : Fin 8) (f : PulseInput → PulseInput) : (s.mapInput pin f).store = s.store := rfl
@[simp] theorem State.mapInput_clock (pin : Fin 8) (f : PulseInput → PulseInput) : (s.mapInput pin f).clock = s.clock := rfl
@[simp] theorem State.mapInput_startup (pin : Fin 8) (f : PulseInput → PulseInput) : (s.mapInput pin f).startup = s.startup := rfl
@[simp] theorem State.mapInput_free (pin : Fin 8) (f : PulseInput → PulseInput) : (s.mapInput pin f).free = s.free := rfl

@[simp] theorem State.mapFiscal_pending (f : Fiscal → Fiscal) : (s.mapFiscal f).pending = s.pending := rfl
@[simp] theorem State.mapFiscal_board (f : Fiscal → Fiscal) : (s.mapFiscal f).board = s.board := rfl
@[simp] theorem State.mapFiscal_ports (f : Fiscal → Fiscal) : (s.mapFiscal f).ports = s.ports := rfl
@[simp] theorem State.mapFiscal_station (f : Fiscal → Fiscal) : (s.mapFiscal f).station = s.station := rfl
@[simp] theorem State.mapFiscal_sensor (f : Fiscal → Fiscal) : (s.mapFiscal f).sensor = s.sensor := rfl
@[simp] theorem State.mapFiscal_pulses (f : Fiscal → Fiscal) : (s.mapFiscal f).pulses = s.pulses := rfl
@[simp] theorem State.mapFiscal_fiscal (f : Fiscal → Fiscal) : (s.mapFiscal f).fiscal = f s.fiscal := rfl
@[simp] theorem State.mapFiscal_decls (f : Fiscal → Fiscal) : (s.mapFiscal f).decls = s.decls := rfl
@[simp] theorem State.mapFiscal_alloc (f : Fiscal → Fiscal) : (s.mapFiscal f).alloc = s.alloc := rfl
@[simp] theorem State.mapFiscal_tracker (f : Fiscal → Fiscal) : (s.mapFiscal f).tracker = s.tracker := rfl
@[simp] theorem State.mapFiscal_billing (f : Fiscal → Fiscal) : (s.mapFiscal f).billing = s.billing := rfl
@[simp] theorem State.mapFiscal_store (f : Fiscal → Fiscal) : (s.mapFiscal f).store = s.store := rfl
@[simp] theorem State.mapFiscal_clock (f : Fiscal → Fiscal) : (s.mapFiscal f).clock = s.clock := rfl
@[simp] theorem State.mapFiscal_startup (f : Fiscal → Fiscal) : (s.mapFiscal f).startup = s.startup := rfl
@[simp] theorem State.mapFiscal_free (f : Fiscal → Fiscal) : (s.mapFiscal f).free = s.free := rfl

@[simp] theorem State.mapAlloc_pending (f : Allocator → Allocator) : (s.mapAlloc f).pending = s.pending := rfl
@[simp] theorem State.mapAlloc_board (f : Allocator → Allocator) : (s.mapAlloc f).board = s.board := rfl
@[simp] theorem State.mapAlloc_ports (f : Allocator → Allocator) : (s.mapAlloc f).ports = s.ports := rfl
@[simp] theorem State.mapAlloc_station (f : Allocator → Allocator) : (s.mapAlloc f).station = s.station := rfl
@[simp] theorem State.mapAlloc_sensor (f : Allocator → Allocator) : (s.mapAlloc f).sensor = s.sensor := rfl
@[simp] theorem State.mapAlloc_pulses (f : Allocator → Allocator) : (s.mapAlloc f).pulses = s.pulses := rfl
@[simp] theorem State.mapAlloc_fiscal (f : Allocator → Allocator) : (s.mapAlloc f).fiscal = s.fiscal := rfl
@[simp] theorem State.mapAlloc_decls (f : Allocator → Allocator) : (s.mapAlloc f).decls = s.decls := rfl
@[simp] theorem State.mapAlloc_alloc (f : Allocator → Allocator) : (s.mapAlloc f).alloc = f s.alloc := rfl
@[simp] theorem State.mapAlloc_tracker (f : Allocator → Allocator) : (s.mapAlloc f).tracker = s.tracker := rfl
@[simp] theorem State.mapAlloc_billing (f : Allocator → Allocator) : (s.mapAlloc f).billing = s.billing := rfl
@[simp] theorem State.mapAlloc_store (f : Allocator → Allocator) : (s.mapAlloc f).store = s.store := rfl
@[simp] theorem State.mapAlloc_clock (f : Allocator → Allocator) : (s.mapAlloc f).clock = s.clock := rfl
@[simp] theorem State.mapAlloc_startup (f : Allocator → Allocator) : (s.mapAlloc f).startup = s.startup := rfl
@[simp] theorem State.mapAlloc_free (f : Allocator → Allocator) : (s.mapAlloc f).free = s.free := rfl

@[simp] theorem State.mapTracker_pending (f : Tracker → Tracker) : (s.mapTracker f).pending = s.pending := rfl
@[simp] theorem State.mapTracker_board (f : Tracker → Tracker) : (s.mapTracker f).board = s.board := rfl
@[simp] theorem State.mapTracker_ports (f : Tracker → Tracker) : (s.mapTracker f).ports = s.ports := rfl
@[simp] theorem State.mapTracker_station (f : Tracker → Tracker) : (s.mapTracker f).station = s.station := rfl
@[simp] theorem State.mapTracker_sensor (f : Tracker → Tracker) : (s.mapTracker f).sensor = s.sensor := rfl
@[simp] theorem State.mapTracker_pulses (f : Tracker → Tracker) : (s.mapTracker f).pulses = s.pulses := rfl
@[simp] theorem State.mapTracker_fiscal (f : Tracker → Tracker) : (s.mapTracker f).fiscal = s.fiscal := rfl
@[simp] theorem State.mapTracker_decls (f : Tracker → Tracker) : (s.mapTracker f).decls = s.decls := rfl
@[simp] theorem State.mapTracker_alloc (f : Tracker → Tracker) : (s.mapTracker f).alloc = s.alloc := rfl
@[simp] theorem State.mapTracker_tracker (f : Tracker → Tracker) : (s.mapTracker f).tracker = f s.tracker := rfl
@[simp] theorem State.mapTracker_billing (f : Tracker → Tracker) : (s.mapTracker f).billing = s.billing := rfl
@[simp] theorem State.mapTracker_store (f : Tracker → Tracker) : (s.mapTracker f).store = s.store := rfl
@[simp] theorem State.mapTracker_clock (f : Tracker → Tracker) : (s.mapTracker f).clock = s.clock := rfl
@[simp] theorem State.mapTracker_startup (f : Tracker → Tracker) : (s.mapTracker f).startup = s.startup := rfl
@[simp] theorem State.mapTracker_free (f : Tracker → Tracker) : (s.mapTracker f).free = s.free := rfl

@[simp] theorem State.mapContract_pending (c : Fin 4) (f : Contract → Contract) : (s.mapContract c f).pending = s.pending := rfl
@[simp] theorem State.mapContract_board (c : Fin 4) (f : Contract → Contract) : (s.mapContract c f).board = s.board := rfl
@[simp] theorem State.mapContract_ports (c : Fin 4) (f : Contract → Contract) : (s.mapContract c f).ports = s.ports := rfl
@[simp] theorem State.mapContract_station (c : Fin 4) (f : Contract → Contract) : (s.mapContract c f).station = s.station := rfl
@[simp] theorem State.mapContract_sensor (c : Fin 4) (f : Contract → Contract) : (s.mapContract c f).sensor = s.sensor := rfl
@[simp] theorem State.mapContract_pulses (c : Fin 4) (f : Contract → Contract) : (s.mapContract c f).pulses = s.pulses := rfl
@[simp] theorem State.mapContract_fiscal (c : Fin 4) (f : Contract → Contract) : (s.mapContract c f).fiscal = s.fiscal := rfl
@[simp] theorem State.mapContract_decls (c : Fin 4) (f : Contract → Contract) : (s.mapContract c f).decls = s.decls := rfl
@[simp] theorem State.mapContract_alloc (c : Fin 4) (f : Contract → Contract) : (s.mapContract c f).alloc = s.alloc := rfl
@[simp] theorem State.mapContract_tracker (c : Fin 4) (f : Contract → Contract) : (s.mapContract c f).tracker = s.tracker := rfl
@[simp] theorem State.mapContract_store (c : Fin 4) (f : Contract → Contract) : (s.mapContract c f).store = s.store := rfl
@[simp] theorem State.mapContract_clock (c : Fin 4) (f : Contract → Contract) : (s.mapContract c f).clock = s.clock := rfl
@[simp] theorem State.mapContract_startup (c : Fin 4) (f : Contract → Contract) : (s.mapContract c f).startup = s.startup := rfl
@[simp] theorem State.mapContract_free (c : Fin 4) (f : Contract → Contract) : (s.mapContract c f).free = s.free := rfl

@[simp] theorem State.mapStore_pending (f : Store → Store) : (s.mapStore f).pending = s.pending := rfl
@[simp] theorem State.mapStore_board (f : Store → Store) : (s.mapStore f).board = s.board := rfl
@[simp] theorem State.mapStore_ports (f : Store → Store) : (s.mapStore f).ports = s.ports := rfl
@[simp] theorem State.mapStore_station (f : Store → Store) : (s.mapStore f).station = s.station := rfl
@[simp] theorem State.mapStore_sensor (f : Store → Store) : (s.mapStore f).sensor = s.sensor := rfl
@[simp] theorem State.mapStore_pulses (f : Store → Store) : (s.mapStore f).pulses = s.pulses := rfl
@[simp] theorem State.mapStore_fiscal (f : Store → Store) : (s.mapStore f).fiscal = s.fiscal := rfl
@[simp] theorem State.mapStore_decls (f : Store → Store) : (s.mapStore f).decls = s.decls := rfl
@[simp] theorem State.mapStore_alloc (f : Store → Store) : (s.mapStore f).alloc = s.alloc := rfl
@[simp] theorem State.mapStore_tracker (f : Store → Store) : (s.mapStore f).tracker = s.tracker := rfl
@[simp] theorem State.mapStore_billing (f : Store → Store) : (s.mapStore f).billing = s.billing := rfl
@[simp] theorem State.mapStore_store (f : Store → Store) : (s.mapStore f).store = f s.store := rfl
@[simp] theorem State.mapStore_clock (f : Store → Store) : (s.mapStore f).clock = s.clock := rfl
@[simp] theorem State.mapStore_startup (f : Store → Store) : (s.mapStore f).startup = s.startup := rfl
@[simp] theorem State.mapStore_free (f : Store → Store) : (s.mapStore f).free = s.free := rfl

@[simp] theorem State.mapStation_pending (f : Station → Station) : (s.mapStation f).pending = s.pending := rfl
@[simp] theorem State.mapStation_board (f : Station → Station) : (s.mapStation f).board = s.board := rfl
@[simp] theorem State.mapStation_ports (f : Station → Station) : (s.mapStation f).ports = s.ports := rfl
@[simp] theorem State.mapStation_station (f : Station → Station) : (s.mapStation f).station = f s.station := rfl
@[simp] theorem State.mapStation_sensor (f : Station → Station) : (s.mapStation f).sensor = s.sensor := rfl
@[simp] theorem State.mapStation_pulses (f : Station → Station) : (s.mapStation f).pulses = s.pulses := rfl
@[simp] theorem State.mapStation_fiscal (f : Station → Station) : (s.mapStation f).fiscal = s.fiscal := rfl
@[simp] theorem State.mapStation_decls (f : Station → Station) : (s.mapStation f).decls = s.decls := rfl
@[simp] theorem State.mapStation_alloc (f : Station → Station) : (s.mapStation f).alloc = s.alloc := rfl
@[simp] theorem State.mapStation_tracker (f : Station → Station) : (s.mapStation f).tracker = s.tracker := rfl
@[simp] theorem State.mapStation_billing (f : Station → Station) : (s.mapStation f).billing = s.billing := rfl
@[simp] theorem State.mapStation_store (f : Station → Station) : (s.mapStation f).store = s.store := rfl
@[simp] theorem State.mapStation_clock (f : Station → Station) : (s.mapStation f).clock = s.clock := rfl
@[simp] theorem State.mapStation_startup (f : Station → Station) : (s.mapStation f).startup = s.startup := rfl
@[simp] theorem State.mapStation_free (f : Station → Station) : (s.mapStation f).free = s.free := rfl

@[simp] theorem State.mapClock_pending (f : Clock → Clock) : (s.mapClock f).pending = s.pending := rfl
@[simp] theorem State.mapClock_board (f : Clock → Clock) : (s.mapClock f).board = s.board := rfl
@[simp] theorem State.mapClock_ports (f : Clock → Clock) : (s.mapClock f).ports = s.ports := rfl
@[simp] theorem State.mapClock_station (f : Clock → Clock) : (s.mapClock f).station = s.station := rfl
@[simp] theorem State.mapClock_sensor (f : Clock → Clock) : (s.mapClock f).sensor = s.sensor := rfl
@[simp] theorem State.mapClock_pulses (f : Clock → Clock) : (s.mapClock f).pulses = s.pulses := rfl
@[simp] theorem State.mapClock_fiscal (f : Clock → Clock) : (s.mapClock f).fiscal = s.fiscal := rfl
@[simp] theorem State.mapClock_decls (f : Clock → Clock) : (s.mapClock f).decls = s.decls := rfl
@[simp] theorem State.mapClock_alloc (f : Clock → Clock) : (s.mapClock f).alloc = s.alloc := rfl
@[simp] theorem State.mapClock_tracker (f : Clock → Clock) : (s.mapClock f).tracker = s.tracker := rfl
@[simp] theorem State.mapClock_billing (f : Clock → Clock) : (s.mapClock f).billing = s.billing := rfl
@[simp] theorem State.mapClock_store (f : Clock → Clock) : (s.mapClock f).store = s.store := rfl
@[simp] theorem State.mapClock_clock (f : Clock → Clock) : (s.mapClock f).clock = f s.clock := rfl
@[simp] theorem State.mapClock_startup (f : Clock → Clock) : (s.mapClock f).startup = s.startup := rfl
@[simp] theorem State.mapClock_free (f : Clock → Clock) : (s.mapClock f).free = s.free := rfl

@[simp] theorem State.setSlot_pending (i : Fin 24) (x : Slot) : (s.setSlot i x).pending = s.pending := rfl
@[simp] theorem State.setSlot_board (i : Fin 24) (x : Slot) : (s.setSlot i x).board = s.board := rfl
@[simp] theorem State.setSlot_ports (i : Fin 24) (x : Slot) : (s.setSlot i x).ports = s.ports := rfl
@[simp] theorem State.setSlot_station (i : Fin 24) (x : Slot) : (s.setSlot i x).station = s.station := rfl
@[simp] theorem State.setSlot_pulses (i : Fin 24) (x : Slot) : (s.setSlot i x).pulses = s.pulses := rfl
@[simp] theorem State.setSlot_fiscal (i : Fin 24) (x : Slot) : (s.setSlot i x).fiscal = s.fiscal := rfl
@[simp] theorem State.setSlot_decls (i : Fin 24) (x : Slot) : (s.setSlot i x).decls = s.decls := rfl
@[simp] theorem State.setSlot_alloc (i : Fin 24) (x : Slot) : (s.setSlot i x).alloc = s.alloc := rfl
@[simp] theorem State.setSlot_tracker (i : Fin 24) (x : Slot) : (s.setSlot i x).tracker = s.tracker := rfl
@[simp] theorem State.setSlot_billing (i : Fin 24) (x : Slot) : (s.setSlot i x).billing = s.billing := rfl
@[simp] theorem State.setSlot_store (i : Fin 24) (x : Slot) : (s.setSlot i x).store = s.store := rfl
@[simp] theorem State.setSlot_clock (i : Fin 24) (x : Slot) : (s.setSlot i x).clock = s.clock := rfl
@[simp] theorem State.setSlot_startup (i : Fin 24) (x : Slot) : (s.setSlot i x).startup = s.startup := rfl
@[simp] theorem State.setSlot_free (i : Fin 24) (x : Slot) : (s.setSlot i x).free = s.free := rfl

@[simp] theorem State.setDecl_pending (d : Fin 13) (x : Declaration) : (s.setDecl d x).pending = s.pending := rfl
@[simp] theorem State.setDecl_board (d : Fin 13) (x : Declaration) : (s.setDecl d x).board = s.board := rfl
@[simp] theorem State.setDecl_ports (d : Fin 13) (x : Declaration) : (s.setDecl d x).ports = s.ports := rfl
@[simp] theorem State.setDecl_station (d : Fin 13) (x : Declaration) : (s.setDecl d x).station = s.station := rfl
@[simp] theorem State.setDecl_sensor (d : Fin 13) (x : Declaration) : (s.setDecl d x).sensor = s.sensor := rfl
@[simp] theorem State.setDecl_pulses (d : Fin 13) (x : Declaration) : (s.setDecl d x).pulses = s.pulses := rfl
@[simp] theorem State.setDecl_fiscal (d : Fin 13) (x : Declaration) : (s.setDecl d x).fiscal = s.fiscal := rfl
@[simp] theorem State.setDecl_decls (d : Fin 13) (x : Declaration) : (s.setDecl d x).decls = s.decls.set d x := rfl
@[simp] theorem State.setDecl_alloc (d : Fin 13) (x : Declaration) : (s.setDecl d x).alloc = s.alloc := rfl
@[simp] theorem State.setDecl_tracker (d : Fin 13) (x : Declaration) : (s.setDecl d x).tracker = s.tracker := rfl
@[simp] theorem State.setDecl_billing (d : Fin 13) (x : Declaration) : (s.setDecl d x).billing = s.billing := rfl
@[simp] theorem State.setDecl_store (d : Fin 13) (x : Declaration) : (s.setDecl d x).store = s.store := rfl
@[simp] theorem State.setDecl_clock (d : Fin 13) (x : Declaration) : (s.setDecl d x).clock = s.clock := rfl
@[simp] theorem State.setDecl_startup (d : Fin 13) (x : Declaration) : (s.setDecl d x).startup = s.startup := rfl
@[simp] theorem State.setDecl_free (d : Fin 13) (x : Declaration) : (s.setDecl d x).free = s.free := rfl

@[simp] theorem State.setConsumer_pending (e : Fin 12) (x : Consumer) : (s.setConsumer e x).pending = s.pending := rfl
@[simp] theorem State.setConsumer_board (e : Fin 12) (x : Consumer) : (s.setConsumer e x).board = s.board := rfl
@[simp] theorem State.setConsumer_ports (e : Fin 12) (x : Consumer) : (s.setConsumer e x).ports = s.ports := rfl
@[simp] theorem State.setConsumer_station (e : Fin 12) (x : Consumer) : (s.setConsumer e x).station = s.station := rfl
@[simp] theorem State.setConsumer_sensor (e : Fin 12) (x : Consumer) : (s.setConsumer e x).sensor = s.sensor := rfl
@[simp] theorem State.setConsumer_pulses (e : Fin 12) (x : Consumer) : (s.setConsumer e x).pulses = s.pulses := rfl
@[simp] theorem State.setConsumer_fiscal (e : Fin 12) (x : Consumer) : (s.setConsumer e x).fiscal = s.fiscal := rfl
@[simp] theorem State.setConsumer_decls (e : Fin 12) (x : Consumer) : (s.setConsumer e x).decls = s.decls := rfl
@[simp] theorem State.setConsumer_tracker (e : Fin 12) (x : Consumer) : (s.setConsumer e x).tracker = s.tracker := rfl
@[simp] theorem State.setConsumer_billing (e : Fin 12) (x : Consumer) : (s.setConsumer e x).billing = s.billing := rfl
@[simp] theorem State.setConsumer_store (e : Fin 12) (x : Consumer) : (s.setConsumer e x).store = s.store := rfl
@[simp] theorem State.setConsumer_clock (e : Fin 12) (x : Consumer) : (s.setConsumer e x).clock = s.clock := rfl
@[simp] theorem State.setConsumer_startup (e : Fin 12) (x : Consumer) : (s.setConsumer e x).startup = s.startup := rfl
@[simp] theorem State.setConsumer_free (e : Fin 12) (x : Consumer) : (s.setConsumer e x).free = s.free := rfl

@[simp] theorem State.setAdjustment_pending (p : Party) (x : Option PendingStep) : (s.setAdjustment p x).pending = s.pending := rfl
@[simp] theorem State.setAdjustment_board (p : Party) (x : Option PendingStep) : (s.setAdjustment p x).board = s.board := rfl
@[simp] theorem State.setAdjustment_ports (p : Party) (x : Option PendingStep) : (s.setAdjustment p x).ports = s.ports := rfl
@[simp] theorem State.setAdjustment_station (p : Party) (x : Option PendingStep) : (s.setAdjustment p x).station = s.station := rfl
@[simp] theorem State.setAdjustment_sensor (p : Party) (x : Option PendingStep) : (s.setAdjustment p x).sensor = s.sensor := rfl
@[simp] theorem State.setAdjustment_pulses (p : Party) (x : Option PendingStep) : (s.setAdjustment p x).pulses = s.pulses := rfl
@[simp] theorem State.setAdjustment_fiscal (p : Party) (x : Option PendingStep) : (s.setAdjustment p x).fiscal = s.fiscal := rfl
@[simp] theorem State.setAdjustment_decls (p : Party) (x : Option PendingStep) : (s.setAdjustment p x).decls = s.decls := rfl
@[simp] theorem State.setAdjustment_alloc (p : Party) (x : Option PendingStep) : (s.setAdjustment p x).alloc = s.alloc := rfl
@[simp] theorem State.setAdjustment_tracker (p : Party) (x : Option PendingStep) : (s.setAdjustment p x).tracker = s.tracker := rfl
@[simp] theorem State.setAdjustment_billing (p : Party) (x : Option PendingStep) : (s.setAdjustment p x).billing = s.billing := rfl
@[simp] theorem State.setAdjustment_store (p : Party) (x : Option PendingStep) : (s.setAdjustment p x).store = s.store := rfl
@[simp] theorem State.setAdjustment_startup (p : Party) (x : Option PendingStep) : (s.setAdjustment p x).startup = s.startup := rfl
@[simp] theorem State.setAdjustment_free (p : Party) (x : Option PendingStep) : (s.setAdjustment p x).free = s.free := rfl

@[simp] theorem State.deliver_pending (r : List Party) (n : Notice) : (s.deliver r n).pending = s.pending := rfl
@[simp] theorem State.deliver_board (r : List Party) (n : Notice) : (s.deliver r n).board = s.board := rfl
@[simp] theorem State.deliver_station (r : List Party) (n : Notice) : (s.deliver r n).station = s.station := rfl
@[simp] theorem State.deliver_sensor (r : List Party) (n : Notice) : (s.deliver r n).sensor = s.sensor := rfl
@[simp] theorem State.deliver_pulses (r : List Party) (n : Notice) : (s.deliver r n).pulses = s.pulses := rfl
@[simp] theorem State.deliver_fiscal (r : List Party) (n : Notice) : (s.deliver r n).fiscal = s.fiscal := rfl
@[simp] theorem State.deliver_decls (r : List Party) (n : Notice) : (s.deliver r n).decls = s.decls := rfl
@[simp] theorem State.deliver_alloc (r : List Party) (n : Notice) : (s.deliver r n).alloc = s.alloc := rfl
@[simp] theorem State.deliver_tracker (r : List Party) (n : Notice) : (s.deliver r n).tracker = s.tracker := rfl
@[simp] theorem State.deliver_billing (r : List Party) (n : Notice) : (s.deliver r n).billing = s.billing := rfl
@[simp] theorem State.deliver_store (r : List Party) (n : Notice) : (s.deliver r n).store = s.store := rfl
@[simp] theorem State.deliver_clock (r : List Party) (n : Notice) : (s.deliver r n).clock = s.clock := rfl
@[simp] theorem State.deliver_startup (r : List Party) (n : Notice) : (s.deliver r n).startup = s.startup := rfl
@[simp] theorem State.deliver_free (r : List Party) (n : Notice) : (s.deliver r n).free = s.free := rfl

@[simp] theorem State.respond_pending (p : Party) (r : Result) (data : List Byte) : (s.respond p r data).pending = s.pending := rfl
@[simp] theorem State.respond_board (p : Party) (r : Result) (data : List Byte) : (s.respond p r data).board = s.board := rfl
@[simp] theorem State.respond_station (p : Party) (r : Result) (data : List Byte) : (s.respond p r data).station = s.station := rfl
@[simp] theorem State.respond_sensor (p : Party) (r : Result) (data : List Byte) : (s.respond p r data).sensor = s.sensor := rfl
@[simp] theorem State.respond_pulses (p : Party) (r : Result) (data : List Byte) : (s.respond p r data).pulses = s.pulses := rfl
@[simp] theorem State.respond_fiscal (p : Party) (r : Result) (data : List Byte) : (s.respond p r data).fiscal = s.fiscal := rfl
@[simp] theorem State.respond_decls (p : Party) (r : Result) (data : List Byte) : (s.respond p r data).decls = s.decls := rfl
@[simp] theorem State.respond_alloc (p : Party) (r : Result) (data : List Byte) : (s.respond p r data).alloc = s.alloc := rfl
@[simp] theorem State.respond_tracker (p : Party) (r : Result) (data : List Byte) : (s.respond p r data).tracker = s.tracker := rfl
@[simp] theorem State.respond_billing (p : Party) (r : Result) (data : List Byte) : (s.respond p r data).billing = s.billing := rfl
@[simp] theorem State.respond_store (p : Party) (r : Result) (data : List Byte) : (s.respond p r data).store = s.store := rfl
@[simp] theorem State.respond_clock (p : Party) (r : Result) (data : List Byte) : (s.respond p r data).clock = s.clock := rfl
@[simp] theorem State.respond_startup (p : Party) (r : Result) (data : List Byte) : (s.respond p r data).startup = s.startup := rfl
@[simp] theorem State.respond_free (p : Party) (r : Result) (data : List Byte) : (s.respond p r data).free = s.free := rfl

@[simp] theorem State.post_pending (r : List Party) (k : NoticeKind) (i : Nat) (v : BitVec 32) (m b : Nat) : (s.post r k i v m b).pending = s.pending := by
  unfold State.post; split <;> rfl
@[simp] theorem State.post_board (r : List Party) (k : NoticeKind) (i : Nat) (v : BitVec 32) (m b : Nat) : (s.post r k i v m b).board = s.board := by
  unfold State.post; split <;> rfl
@[simp] theorem State.post_station (r : List Party) (k : NoticeKind) (i : Nat) (v : BitVec 32) (m b : Nat) : (s.post r k i v m b).station = s.station := by
  unfold State.post; split <;> rfl
@[simp] theorem State.post_sensor (r : List Party) (k : NoticeKind) (i : Nat) (v : BitVec 32) (m b : Nat) : (s.post r k i v m b).sensor = s.sensor := by
  unfold State.post; split <;> rfl
@[simp] theorem State.post_pulses (r : List Party) (k : NoticeKind) (i : Nat) (v : BitVec 32) (m b : Nat) : (s.post r k i v m b).pulses = s.pulses := by
  unfold State.post; split <;> rfl
@[simp] theorem State.post_fiscal (r : List Party) (k : NoticeKind) (i : Nat) (v : BitVec 32) (m b : Nat) : (s.post r k i v m b).fiscal = s.fiscal := by
  unfold State.post; split <;> rfl
@[simp] theorem State.post_decls (r : List Party) (k : NoticeKind) (i : Nat) (v : BitVec 32) (m b : Nat) : (s.post r k i v m b).decls = s.decls := by
  unfold State.post; split <;> rfl
@[simp] theorem State.post_alloc (r : List Party) (k : NoticeKind) (i : Nat) (v : BitVec 32) (m b : Nat) : (s.post r k i v m b).alloc = s.alloc := by
  unfold State.post; split <;> rfl
@[simp] theorem State.post_tracker (r : List Party) (k : NoticeKind) (i : Nat) (v : BitVec 32) (m b : Nat) : (s.post r k i v m b).tracker = s.tracker := by
  unfold State.post; split <;> rfl
@[simp] theorem State.post_billing (r : List Party) (k : NoticeKind) (i : Nat) (v : BitVec 32) (m b : Nat) : (s.post r k i v m b).billing = s.billing := by
  unfold State.post; split <;> rfl
@[simp] theorem State.post_store (r : List Party) (k : NoticeKind) (i : Nat) (v : BitVec 32) (m b : Nat) : (s.post r k i v m b).store = s.store := by
  unfold State.post; split <;> rfl
@[simp] theorem State.post_clock (r : List Party) (k : NoticeKind) (i : Nat) (v : BitVec 32) (m b : Nat) : (s.post r k i v m b).clock = s.clock := by
  unfold State.post; split <;> rfl
@[simp] theorem State.post_startup (r : List Party) (k : NoticeKind) (i : Nat) (v : BitVec 32) (m b : Nat) : (s.post r k i v m b).startup = s.startup := by
  unfold State.post; split <;> rfl
@[simp] theorem State.post_free (r : List Party) (k : NoticeKind) (i : Nat) (v : BitVec 32) (m b : Nat) : (s.post r k i v m b).free = s.free := by
  unfold State.post; split <;> rfl

@[simp] theorem State.askFlag_pending (i : Fin 8) (v : Bool) : (s.askFlag i v).pending = s.pending := by
  unfold State.askFlag; split <;> simp
@[simp] theorem State.askFlag_board (i : Fin 8) (v : Bool) : (s.askFlag i v).board = s.board := by
  unfold State.askFlag; split <;> simp
@[simp] theorem State.askFlag_station (i : Fin 8) (v : Bool) : (s.askFlag i v).station = s.station := by
  unfold State.askFlag; split <;> simp
@[simp] theorem State.askFlag_sensor (i : Fin 8) (v : Bool) : (s.askFlag i v).sensor = s.sensor := by
  unfold State.askFlag; split <;> simp
@[simp] theorem State.askFlag_pulses (i : Fin 8) (v : Bool) : (s.askFlag i v).pulses = s.pulses := by
  unfold State.askFlag; split <;> simp
@[simp] theorem State.askFlag_fiscal (i : Fin 8) (v : Bool) : (s.askFlag i v).fiscal = s.fiscal := by
  unfold State.askFlag; split <;> simp
@[simp] theorem State.askFlag_decls (i : Fin 8) (v : Bool) : (s.askFlag i v).decls = s.decls := by
  unfold State.askFlag; split <;> simp
@[simp] theorem State.askFlag_tracker (i : Fin 8) (v : Bool) : (s.askFlag i v).tracker = s.tracker := by
  unfold State.askFlag; split <;> simp
@[simp] theorem State.askFlag_billing (i : Fin 8) (v : Bool) : (s.askFlag i v).billing = s.billing := by
  unfold State.askFlag; split <;> simp
@[simp] theorem State.askFlag_store (i : Fin 8) (v : Bool) : (s.askFlag i v).store = s.store := by
  unfold State.askFlag; split <;> simp
@[simp] theorem State.askFlag_clock (i : Fin 8) (v : Bool) : (s.askFlag i v).clock = s.clock := by
  unfold State.askFlag; split <;> simp
@[simp] theorem State.askFlag_startup (i : Fin 8) (v : Bool) : (s.askFlag i v).startup = s.startup := by
  unfold State.askFlag; split <;> simp
@[simp] theorem State.askFlag_free (i : Fin 8) (v : Bool) : (s.askFlag i v).free = s.free := by
  unfold State.askFlag; split <;> simp

/-! ### Views -/

@[simp] theorem State.mapPort_port (p : Party) (f : Port → Port) : (s.mapPort p f).port p = f (s.port p) := by
  simp [State.port, State.mapPort]

theorem partyIndex_ne {p q : Party} (h : p ≠ q) : partyIndex p ≠ partyIndex q := by
  cases p <;> cases q <;> first | exact absurd rfl h | decide

theorem State.mapPort_port_ne {p q : Party} (f : Port → Port) (h : p ≠ q) : (s.mapPort p f).port q = s.port q := by
  simp [State.port, State.mapPort, Table.get_modify_ne _ _ (partyIndex_ne h)]

@[simp] theorem State.setConsumer_consumer (e : Fin 12) (c : Consumer) : (s.setConsumer e c).consumer e = c := by
  simp [State.consumer, State.setConsumer]

theorem State.setConsumer_consumer_ne {e f : Fin 12} (c : Consumer) (h : e ≠ f) :
    (s.setConsumer e c).consumer f = s.consumer f := by
  simp [State.consumer, State.setConsumer, Table.get_set_ne _ _ h]

@[simp] theorem State.mapContract_contract (c : Fin 4) (f : Contract → Contract) :
    (s.mapContract c f).contract c = f (s.contract c) := by
  simp [State.contract, State.mapContract]

theorem State.mapContract_contract_ne {c d : Fin 4} (f : Contract → Contract) (h : c ≠ d) :
    (s.mapContract c f).contract d = s.contract d := by
  simp [State.contract, State.mapContract, Table.get_modify_ne _ _ h]

/-- Two states that differ in their ports alone have the same image and the same running blocks. -/
theorem State.img_congr {s t : State} (h : s.station = t.station) : s.img = t.img := by
  simp [State.img, h]

theorem State.settled_congr {s t : State} (h : s.station = t.station) : s.settled = t.settled := by
  simp [State.settled, h]

end Sys2Proof.Machine
end

