-- ==== Sys2Proof/Laws/Store.lean ====
section
/-! SUPPORT. What the Record Store's shared operations can do, said once: which fields of the store each of them may
change, and how an operation joins the array queue. -/

namespace Sys2Proof.Machine

variable {st : Store}

/-- Listing a sector for erase changes the erase list, the sector states and the index alone (R154, R156). -/
theorem Store.listErase_frame (st : Store) (n : Nat) : ∃ l c x i,
    st.listErase n = { st with eraseList := l, ckpts := c, sectors := x, index := i } := by
  unfold Store.listErase
  by_cases h : st.eraseList.contains n = true <;> by_cases h2 : n < 2 <;> by_cases h10 : n < 10 <;>
    simp only [h, h2, h10, if_true, if_false, Bool.false_eq_true] <;> exact ⟨_, _, _, _, rfl⟩

/-- A sector that is listed stands in the erase list afterwards, behind what was listed before. -/
theorem Store.listErase_eraseList (st : Store) (n : Nat) :
    (st.listErase n).eraseList = if st.eraseList.contains n then st.eraseList else st.eraseList ++ [n] := by
  unfold Store.listErase
  by_cases h : st.eraseList.contains n = true <;> by_cases h2 : n < 2 <;> by_cases h10 : n < 10 <;>
    simp only [h, h2, h10, if_true, if_false, Bool.false_eq_true] <;> rfl

theorem Store.mem_listErase (st : Store) (n m : Nat) :
    m ∈ (st.listErase n).eraseList ↔ m ∈ st.eraseList ∨ m = n := by
  rw [Store.listErase_eraseList]
  split
  · next h =>
    have : n ∈ st.eraseList := by simpa using h
    constructor
    · exact Or.inl
    · rintro (h | rfl) <;> assumption
  · simp

/-- Trying the conditions of R162 changes what listing changes. -/
theorem joinAlong_frame (l : List Nat) (o : Bool) (r : Nat) (st : Store) : ∃ e c x i,
    joinAlong l o r st = { st with eraseList := e, ckpts := c, sectors := x, index := i } := by
  induction l generalizing o r st with
  | nil => exact ⟨_, _, _, _, rfl⟩
  | cons n rest ih =>
    unfold joinAlong
    dsimp only
    split
    · obtain ⟨e, c, x, i, h⟩ := st.listErase_frame n
      obtain ⟨e', c', x', i', h'⟩ := ih true
        (if (st.sector n).retiring then r else r + 1) (st.listErase n)
      exact ⟨e', c', x', i', by rw [h', h]⟩
    · split
      · exact ih ..
      · exact ih ..

/-- Testing the erase conditions (R162) changes the erase list, the sector states and the index alone. -/
theorem Store.testErases_frame (st : Store) : ∃ e c x i,
    st.testErases = { st with eraseList := e, ckpts := c, sectors := x, index := i } := joinAlong_frame ..

/-- Moving the write position (R158) changes that, and what testing the erase conditions changes. -/
theorem Store.enter_frame (st : Store) (sector unit : Nat) : ∃ e c x i w u,
    st.enter sector unit =
      { st with eraseList := e, ckpts := c, sectors := x, index := i, writeSector := w, nextUnit := u } := by
  unfold Store.enter
  split
  · exact ⟨_, _, _, _, _, _, rfl⟩
  · dsimp only
    split
    all_goals
      obtain ⟨e, c, x, i, h⟩ := Store.testErases_frame _
      exact ⟨e, c, x, i, _, _, by rw [h]; rfl⟩

/-- Listing the two sectors after a checkpoint (R169) changes what listing changes. -/
theorem Store.listTwoAfter_frame (st : Store) (j : Nat) : ∃ e c x i,
    st.listTwoAfter j = { st with eraseList := e, ckpts := c, sectors := x, index := i } := by
  unfold Store.listTwoAfter
  generalize st.twoAfter j = l
  induction l generalizing st with
  | nil => exact ⟨_, _, _, _, rfl⟩
  | cons n rest ih =>
    rw [List.foldl_cons]
    split
    · exact ih st
    · obtain ⟨e, c, x, i, h⟩ := st.listErase_frame n
      obtain ⟨e', c', x', i', h'⟩ := ih (st.listErase n)
      exact ⟨e', c', x', i', by rw [h', h]⟩

/-- An operation joins the tail of the array queue; it suspends an erase in progress when it can be served, and nothing else
changes (R154, R155). -/
theorem Store.enqueue_cases (st : Store) (op : ArrayOp) :
    st.enqueue op = { st with queue := st.queue ++ [op] } ∨
    ∃ n, st.current = some (.erase n) ∧
      st.enqueue op = { st with queue := st.queue ++ [op], current := none, suspended := some n } := by
  unfold Store.enqueue
  dsimp only
  cases hc : st.current with
  | none => exact .inl rfl
  | some a =>
    cases a with
    | erase n =>
      by_cases h : (({ st with queue := st.queue ++ [op] } : Store).canServe op) = true
      · right
        refine ⟨n, rfl, ?_⟩
        simp only [hc] at h ⊢
        simp only [h, if_true]
      · left
        simp only [hc] at h ⊢
        simp only [h, if_false, Bool.false_eq_true]
    | _ => left; cases st; simp_all

/-- The array's bytes stand when an operation joins the queue. -/
@[simp] theorem Store.enqueue_cells (st : Store) (op : ArrayOp) : (st.enqueue op).cells = st.cells := by
  rcases st.enqueue_cases op with h | ⟨n, -, h⟩ <;> rw [h]

@[simp] theorem Store.enqueue_queue (st : Store) (op : ArrayOp) : (st.enqueue op).queue = st.queue ++ [op] := by
  rcases st.enqueue_cases op with h | ⟨n, -, h⟩ <;> rw [h]

@[simp] theorem Store.enqueue_index (st : Store) (op : ArrayOp) : (st.enqueue op).index = st.index := by
  rcases st.enqueue_cases op with h | ⟨n, -, h⟩ <;> rw [h]

@[simp] theorem Store.enqueue_ckpts (st : Store) (op : ArrayOp) : (st.enqueue op).ckpts = st.ckpts := by
  rcases st.enqueue_cases op with h | ⟨n, -, h⟩ <;> rw [h]

@[simp] theorem Store.listErase_cells (st : Store) (n : Nat) : (st.listErase n).cells = st.cells := by
  obtain ⟨l, c, x, i, h⟩ := st.listErase_frame n; rw [h]

@[simp] theorem Store.testErases_cells (st : Store) : st.testErases.cells = st.cells := by
  obtain ⟨l, c, x, i, h⟩ := st.testErases_frame; rw [h]

@[simp] theorem Store.enter_cells (st : Store) (sector unit : Nat) : (st.enter sector unit).cells = st.cells := by
  obtain ⟨e, c, x, i, w, u, h⟩ := st.enter_frame sector unit; rw [h]

@[simp] theorem Store.listTwoAfter_cells (st : Store) (j : Nat) : (st.listTwoAfter j).cells = st.cells := by
  obtain ⟨l, c, x, i, h⟩ := st.listTwoAfter_frame j; rw [h]

/-- A restart leaves the array's bytes as they stand (R183). -/
theorem foldl_listErase_cells (l : List Nat) (st : Store) : (l.foldl Store.listErase st).cells = st.cells := by
  induction l generalizing st with
  | nil => rfl
  | cons n rest ih => rw [List.foldl_cons, ih, Store.listErase_cells]

/-- What the taking of an operation out of the queue can be. -/
theorem takeFirst_mem {test : ArrayOp → Bool} {q rest : List ArrayOp} {op : ArrayOp}
    (h : takeFirst test q = some (op, rest)) : test op = true ∧ op ∈ q ∧ ∀ x ∈ rest, x ∈ q := by
  induction q generalizing rest op with
  | nil => cases h
  | cons a q ih =>
    unfold takeFirst at h
    split at h
    · next ht =>
      cases h
      exact ⟨ht, List.mem_cons_self .., fun x hx => List.mem_cons_of_mem _ hx⟩
    · cases hq : takeFirst test q with
      | none => rw [hq] at h; cases h
      | some y =>
        obtain ⟨o, r⟩ := y
        rw [hq] at h
        cases h
        obtain ⟨h1, h2, h3⟩ := ih hq
        refine ⟨h1, List.mem_cons_of_mem _ h2, fun x hx => ?_⟩
        rcases List.mem_cons.mp hx with rfl | hx
        · exact List.mem_cons_self ..
        · exact List.mem_cons_of_mem _ (h3 x hx)

/-- A configuration program cut short leaves what some cut of that program leaves (R167). -/
theorem tornConfig_cases (cells : List Host.Cell) (sector generation : Nat) (image : Image) (torn : Torn) : ∃ k left,
    tornConfig cells sector generation image torn =
      tearProgram cells (sectorBase sector) (imageBytes generation image) k left := by
  unfold tornConfig
  dsimp only
  split
  · exact ⟨_, _, rfl⟩
  · split <;> exact ⟨_, _, rfl⟩

/-- A configuration program cut short keeps the array's canonical form. -/
theorem tornConfig_wf {cells : List Host.Cell} (h : Cells.wf cells = true) (sector generation : Nat) (image : Image)
    (torn : Torn) : Cells.wf (tornConfig cells sector generation image torn) = true := by
  obtain ⟨k, left, e⟩ := tornConfig_cases cells sector generation image torn
  rw [e]; exact tearProgram_wf h _ _ _ _

/-- A byte of an erased sector reads FFh. -/
theorem readCell_of_blank {m : List Host.Cell} {sector x : Nat} (h : sectorBlank m sector = true)
    (hx : sectorBase sector ≤ x ∧ x < sectorBase (sector + 1)) : readCell m x = erasedByte := by
  by_cases hm : ∃ c ∈ m, c.1 = x
  · have hr : ∀ (l : List Host.Cell), (∀ c ∈ l, c ∈ m) → readCell l x = erasedByte := by
      intro l
      induction l with
      | nil => intro _; rfl
      | cons d l ih =>
        intro hl
        obtain ⟨b, w⟩ := d
        simp only [readCell]
        split
        · next hb =>
          have := List.all_eq_true.1 h _ (hl _ (List.mem_cons_self ..))
          simp only [Bool.or_eq_true, beq_iff_eq, decide_eq_true_eq] at this
          rcases this with (hv | hv) | hv
          · exact hv
          all_goals omega
        · exact ih fun c hc => hl c (List.mem_cons_of_mem _ hc)
    exact hr m fun _ h => h
  · exact readCell_unlisted fun c hc e => hm ⟨c, hc, e⟩

/-- A sector with a byte other than FFh is not erased. -/
theorem not_blank_of_readCell {m : List Host.Cell} {sector x : Nat}
    (hx : sectorBase sector ≤ x ∧ x < sectorBase (sector + 1)) (h : readCell m x ≠ erasedByte) :
    sectorBlank m sector = false := by
  cases hb : sectorBlank m sector with
  | false => rfl
  | true => exact absurd (readCell_of_blank hb hx) h

/-- Bytes that all read alike. -/
theorem readBytes_replicate {m : List Host.Cell} {v : Byte} {n a : Nat} (h : ∀ x, a ≤ x → x < a + n → readCell m x = v) :
    readBytes m a n = List.replicate n v := by
  induction n generalizing a with
  | zero => rfl
  | succ n ih =>
    rw [readBytes, h a (Nat.le_refl a) (by omega), ih fun x h1 h2 => h x (by omega) (by omega)]; rfl

set_option maxRecDepth 100000 in
/-- The check word of 1880 bytes FFh is none that an erased field spells. -/
theorem crc32_erased : crc32 (List.replicate 1880 erasedByte) ≠ ofBe (List.replicate 4 erasedByte) := by decide +kernel

/-- A generation below its last value does not read FFFFFFFFh. -/
theorem be4_not_erased {n : Nat} (h : n ≤ 4294967294) : ∃ k, k < 4 ∧ (be 4 n).getD k erasedByte ≠ erasedByte := by
  by_contra hn
  have hc : ∀ k, k < 4 → (be 4 n).getD k erasedByte = erasedByte := fun k hk => by
    by_contra he; exact hn ⟨k, hk, he⟩
  have h0 := hc 0 (by omega)
  have h1 := hc 1 (by omega)
  have h2 := hc 2 (by omega)
  have h3 := hc 3 (by omega)
  simp [be, erasedByte] at h0 h1 h2 h3
  have e0 := congrArg BitVec.toNat h0
  have e1 := congrArg BitVec.toNat h1
  have e2 := congrArg BitVec.toNat h2
  have e3 := congrArg BitVec.toNat h3
  simp at e0 e1 e2 e3
  omega

/-- What each byte reads when the generation alone has been programmed into an erased sector. -/
theorem readCell_generation {m : List Host.Cell} {sector generation x : Nat} {image : Image} (hw : Cells.wf m = true)
    (hb : sectorBlank m sector = true) (hx : sectorBase sector ≤ x ∧ x < sectorBase (sector + 1)) :
    readCell (tearProgram m (sectorBase sector) (imageBytes generation image) 0 (List.replicate 4 0#8)) x =
      (be 4 generation).getD (x - sectorBase sector) erasedByte := by
  have hones : ∀ w : Byte, w ||| erasedByte = erasedByte := by decide
  have hand : ∀ w : Byte, erasedByte &&& w = w := by decide
  have hG : (be 4 generation).length = 4 := rfl
  unfold tearProgram tearUnit
  simp only [Nat.mul_zero, List.take_zero, Nat.add_zero, List.drop_zero, programBytes]
  rw [readCell_programBytes hw, readCell_of_blank hb hx, hand]
  obtain ⟨k, rfl⟩ : ∃ k, x = sectorBase sector + k := ⟨x - sectorBase sector, by omega⟩
  simp only [Nat.add_sub_cancel_left]
  unfold imageBytes
  generalize image.canonical = A
  generalize be 4 image.checkWord = B
  generalize be 4 generation = G at hG
  have key : (List.zipWith (fun w p => w ||| p) ((G ++ A ++ B).take 32)
      (List.replicate 4 0#8 ++ List.replicate 32 erasedByte)).getD k erasedByte = G.getD k erasedByte := by
    simp only [List.getD_eq_getElem?_getD, List.getElem?_zipWith, List.getElem?_take, List.append_assoc]
    by_cases hk : k < 4
    · rw [if_pos (by omega), List.getElem?_append_left (by omega),
        List.getElem?_append_left (by rw [List.length_replicate]; exact hk), List.getElem?_eq_getElem (by omega),
        List.getElem?_eq_getElem (by rw [List.length_replicate]; exact hk), List.getElem_replicate]
      simp
    · have hn : G[k]? = none := List.getElem?_eq_none (by omega)
      have h2 : (List.replicate 4 (0#8 : Byte) ++ List.replicate 32 erasedByte)[k]? =
          if k < 36 then some erasedByte else none := by
        rw [List.getElem?_append_right (by rw [List.length_replicate]; omega), List.length_replicate,
          List.getElem?_replicate]
        congr 1; exact propext (by omega)
      rw [hn, h2]
      generalize (if k < 32 then (G ++ (A ++ B))[k]? else none) = o
      cases o with
      | none => rfl
      | some w =>
        by_cases hk2 : k < 36
        · rw [if_pos hk2]; exact hones w
        · rw [if_neg hk2]
  split
  · exact key
  · rename_i hout
    rw [← key, List.getD_eq_default _ _ (Nat.le_of_not_lt fun hlt => hout ⟨by omega, Nat.add_lt_add_left hlt _⟩)]

/-- A configuration program that is cut short leaves its sector DAMAGED (R167). -/
theorem tornConfig_damaged {cells : List Host.Cell} {sector generation : Nat} {image : Image} {torn : Torn}
    (hw : Cells.wf cells = true) (hb : sectorBlank cells sector = true) (hg : generation ≤ 4294967294) :
    classifyConfig (tornConfig cells sector generation image torn) sector = .damaged := by
  unfold tornConfig
  dsimp only
  split
  · assumption
  · split
    · assumption
    · rename_i h
      exfalso
      apply h
      have hread := fun x => readCell_generation (x := x) (generation := generation) (image := image) hw hb
      generalize tearProgram cells (sectorBase sector) (imageBytes generation image) 0 (List.replicate 4 0#8) = m at hread
      have hs : sectorBase (sector + 1) = sectorBase sector + 4096 := by unfold sectorBase; omega
      obtain ⟨k, hk, hne⟩ := be4_not_erased hg
      have hnb : sectorBlank m sector = false :=
        not_blank_of_readCell (x := sectorBase sector + k) (by omega)
          (by rw [hread _ (by omega), Nat.add_sub_cancel_left]; exact hne)
      have hff : ∀ x, sectorBase sector + 4 ≤ x → x < sectorBase sector + 4096 → readCell m x = erasedByte := by
        intro x h1 h2
        rw [hread x (by omega)]
        obtain ⟨j, hj⟩ : ∃ j, x - sectorBase sector = j + 4 := ⟨x - sectorBase sector - 4, by omega⟩
        rw [hj]; rfl
      unfold classifyConfig
      simp only [hnb, Bool.false_eq_true, if_false]
      rw [readBytes_replicate (n := 1880) (a := sectorBase sector + 4) fun x h1 h2 => hff x h1 (by omega),
        readBytes_replicate (n := 4) (a := sectorBase sector + 1884) fun x h1 h2 => hff x (by omega) (by omega),
        if_neg fun h => crc32_erased h.1.symm]

/-- The end of a record sector's erase leaves the array's bytes and the index (R163). -/
@[simp] theorem Store.afterErase_cells (st : Store) (n : Nat) (ok : Bool) :
    (st.afterErase n ok).cells = st.cells ∧ (st.afterErase n ok).index = st.index := ⟨rfl, rfl⟩

end Sys2Proof.Machine
end

