-- ==== Sys2Proof/Laws/Blocks.lean ====
section
/-! SUPPORT. What the operations shared by several commands can change, said once: each lemma names every component of
the state that its operation may give a new value. -/

namespace Sys2Proof.Machine

/-- A notice reaches the ports alone (R194). -/
theorem State.post_frame (s : State) (rs : List Party) (k : NoticeKind) (i : Nat) (v : BitVec 32) (m b : Nat) :
    ∃ p, s.post rs k i v m b = { s with ports := p } := by
  unfold State.post State.deliver
  split
  · exact ⟨_, rfl⟩
  · exact ⟨s.ports, rfl⟩

/-- A change of a flag touches the flags and the ports (R67). -/
theorem State.askFlag_frame (s : State) (f : Fin 8) (v : Bool) :
    ∃ p x, s.askFlag f v = { s with ports := p, alloc := { s.alloc with flags := x } } := by
  unfold State.askFlag
  split
  · exact ⟨s.ports, s.alloc.flags, rfl⟩
  · obtain ⟨p, h⟩ := State.post_frame _ allParties .flagChanged f.val (if v then 1#32 else 0#32) 0 0
    exact ⟨p, _, by rw [h]; rfl⟩

/-- The hand-over of a frame grant touches the consumers and the ports (R98, R99). -/
theorem State.handGrant_frame (s : State) (e : Fin 12) (g : Nat) :
    ∃ p x, s.handGrant e g = { s with ports := p, alloc := { s.alloc with consumers := x } } := by
  unfold State.handGrant
  dsimp only
  split
  · exact ⟨s.ports, s.alloc.consumers, rfl⟩
  · split
    · unfold State.postGrant
      obtain ⟨p, h⟩ := State.post_frame (s.setConsumer e ((s.consumer e).posting g s.img.confirmationTime))
        ((s.setConsumer e ((s.consumer e).posting g s.img.confirmationTime)).img.operator e).toList .grant e.val
        (BitVec.ofNat 32 g) (if false = true then 1 else 0) ((s.consumer e).posting g s.img.confirmationTime).id
      exact ⟨p, _, by rw [h]; rfl⟩
    · exact ⟨_, _, rfl⟩

/-- Every consumer but the one that is handed a grant stays. -/
theorem State.handGrant_consumer_ne (s : State) {e d : Fin 12} (g : Nat) (h : d ≠ e) :
    (s.handGrant e g).consumer d = s.consumer d := by
  unfold State.handGrant State.postGrant
  dsimp only
  split
  · rfl
  · split <;> simp [State.consumer, State.setConsumer, State.mapAlloc, Table.get_set_ne _ _ (Ne.symm h)]

/-- The hand-over of all frame grants touches the consumers and the ports (R90). -/
theorem State.handOver_frame (s : State) (f : FrameSummary) :
    ∃ p x, s.handOver f = { s with ports := p, alloc := { s.alloc with consumers := x } } := by
  unfold State.handOver
  generalize List.finRange 12 = l
  induction l generalizing s with
  | nil => exact ⟨_, _, rfl⟩
  | cons e rest ih =>
    rw [List.foldl_cons]
    cases (f.outcomes.get e).grant with
    | none => exact ih s
    | some g =>
      obtain ⟨p, x, h⟩ := s.handGrant_frame e g
      obtain ⟨p', x', h'⟩ := ih (s.handGrant e g)
      exact ⟨p', x', by rw [h', h]⟩

/-- A closing account reaches the store alone (R157). -/
theorem State.handAccount_frame (s : State) (c : Fin 4) (a : Account) :
    ∃ st, s.handAccount c a = { s with store := st } ∧ st.cells = s.store.cells ∧ st.index = s.store.index :=
  ⟨_, rfl, by simp, by simp⟩

/-- A period that opens touches the contracts and the ports (R144). -/
theorem State.openTariff_frame (s : State) (c : Fin 4) :
    ∃ p b, s.openTariff c = { s with ports := p, billing := b } := by
  unfold State.openTariff
  dsimp only
  split
  · exact ⟨_, _, rfl⟩
  · split
    · exact ⟨_, _, rfl⟩
    · split
      all_goals
        obtain ⟨p, h⟩ := State.post_frame _ _ _ _ _ _ _
        exact ⟨p, _, by rw [h]; rfl⟩

/-- `t` differs from `s` in the ports, the billing unit and the store alone, and the array's bytes and the index stand. -/
def OnlyBilled (s t : State) : Prop :=
  ∃ p b st, t = { s with ports := p, billing := b, store := st } ∧ st.cells = s.store.cells ∧ st.index = s.store.index

theorem OnlyBilled.refl (s : State) : OnlyBilled s s := ⟨_, _, _, rfl, rfl, rfl⟩

theorem OnlyBilled.trans {s t u : State} (h : OnlyBilled s t) (k : OnlyBilled t u) : OnlyBilled s u := by
  obtain ⟨p, b, st, rfl, hc, hi⟩ := h
  obtain ⟨p', b', st', rfl, hc', hi'⟩ := k
  exact ⟨p', b', st', rfl, hc'.trans hc, hi'.trans hi⟩

theorem OnlyBilled.post (s : State) (rs : List Party) (k : NoticeKind) (i : Nat) (v : BitVec 32) (m b : Nat) :
    OnlyBilled s (s.post rs k i v m b) := by
  obtain ⟨p, h⟩ := s.post_frame rs k i v m b
  exact ⟨p, _, _, h, rfl, rfl⟩

theorem OnlyBilled.mapContract (s : State) (c : Fin 4) (f : Contract → Contract) : OnlyBilled s (s.mapContract c f) :=
  ⟨_, _, _, rfl, rfl, rfl⟩

/-- A period that closes (R147). -/
theorem OnlyBilled.closePeriod (s : State) (c : Fin 4) (l : Nat) (d : Bool) : OnlyBilled s (s.closePeriod c l d) := by
  unfold State.closePeriod
  dsimp only
  generalize h1 : s.mapContract c _ = s1
  have k1 : OnlyBilled s s1 := h1 ▸ OnlyBilled.mapContract ..
  have k2 : OnlyBilled s1 (s1.openTariff c) := by
    obtain ⟨p, b, h⟩ := s1.openTariff_frame c
    exact ⟨p, b, _, h, rfl, rfl⟩
  generalize h3 : (s1.openTariff c).mapContract c _ = s3
  have k3 : OnlyBilled (s1.openTariff c) s3 := h3 ▸ OnlyBilled.mapContract ..
  generalize h4 : s3.post _ _ _ _ = s4
  have k4 : OnlyBilled s3 s4 := h4 ▸ OnlyBilled.post ..
  refine ((k1.trans k2).trans (k3.trans k4)).trans ?_
  split
  · exact OnlyBilled.refl _
  · obtain ⟨st, h, hc, hi⟩ := State.handAccount_frame s4 c { (s.contract c).opened with finish := l }
    exact ⟨_, _, st, h, hc, hi⟩

/-- What R146 decides at a boundary. -/
theorem OnlyBilled.settleBoundary (s : State) (c : Fin 4) (l : Nat) : OnlyBilled s (s.settleBoundary c l) := by
  unfold State.settleBoundary State.extendPeriod
  dsimp only
  split
  · exact (OnlyBilled.mapContract ..).trans (OnlyBilled.post ..)
  · split
    · exact OnlyBilled.closePeriod ..
    · split
      · exact OnlyBilled.closePeriod ..
      · exact (OnlyBilled.mapContract ..).trans (OnlyBilled.post ..)

/-- The boundaries of all contracts at a label (R146) touch the ports, the billing unit and the store alone, and leave the
array's bytes and the index. -/
theorem OnlyBilled.takeBoundaries (s : State) (l : Nat) : OnlyBilled s (s.takeBoundaries l) := by
  unfold State.takeBoundaries
  generalize List.finRange 4 = cs
  induction cs generalizing s with
  | nil => exact OnlyBilled.refl s
  | cons c rest ih =>
    rw [List.foldl_cons]
    refine OnlyBilled.trans ?_ (ih _)
    unfold State.takeBoundary
    split
    · exact (OnlyBilled.settleBoundary ..).trans (OnlyBilled.mapContract ..)
    · exact OnlyBilled.refl s

/-- The crediting of a tick's delivery (R137) touches the billing unit alone. -/
theorem State.creditDelivery_frame (s : State) (second : Nat) : ∃ b, s.creditDelivery second = { s with billing := b } := by
  unfold State.creditDelivery
  generalize List.finRange 4 = cs
  induction cs generalizing s with
  | nil => exact ⟨_, rfl⟩
  | cons c rest ih =>
    rw [List.foldl_cons]
    obtain ⟨b, h⟩ := ih (State.creditContract second s c)
    refine ⟨b, h.trans ?_⟩
    unfold State.creditContract
    dsimp only
    split <;> rfl

/-- The close of an interval (R124) touches the ports and the billing unit alone. -/
theorem State.closeInterval_frame (s : State) : ∃ p b, s.closeInterval = { s with ports := p, billing := b } := by
  unfold State.closeInterval
  split
  · exact ⟨_, _, rfl⟩
  · dsimp only
    split
    · obtain ⟨p, h⟩ := State.post_frame _ _ _ _ _ _ _
      exact ⟨p, _, by rw [h]; rfl⟩
    · exact ⟨_, _, rfl⟩

/-- The judgement of the deviation (R123) touches the tracker, flag F7 and the ports alone. -/
theorem State.judgeDeviation_frame (s : State) (l : Nat) :
    ∃ p x b, s.judgeDeviation l =
      { s with ports := p, alloc := { s.alloc with flags := x }, tracker := { s.tracker with behind := b } } := by
  unfold State.judgeDeviation
  dsimp only
  obtain ⟨p, x, h⟩ := State.askFlag_frame _ _ _
  exact ⟨p, x, _, by rw [h]; rfl⟩

/-- A hand-off (R122) touches the ports, the flags, the tracker and the billing unit alone. -/
theorem State.handOff_frame (s : State) (l carry : Nat) :
    ∃ p x k b, s.handOff l carry =
      { s with ports := p, alloc := { s.alloc with flags := x }, tracker := k, billing := b } := by
  unfold State.handOff
  dsimp only
  split
  · obtain ⟨p, b, h⟩ := State.closeInterval_frame (s.mapTracker fun t => { t with e := min 4294967295 (t.e + carry) })
    rw [h]
    obtain ⟨p', x, bh, h'⟩ := State.judgeDeviation_frame _ l
    exact ⟨p', x, _, b, by rw [h']; rfl⟩
  · obtain ⟨p, x, bh, h⟩ := State.judgeDeviation_frame (s.mapTracker fun t => { t with e := min 4294967295 (t.e + carry) }) l
    exact ⟨p, x, _, s.billing, by rw [h]; rfl⟩

/-- The passing of milliseconds (R37, R166, R177) touches the millisecond counter, the phase of the tick timer, the ages of
edges and stamps at the pulse inputs, and the erase time alone. -/
theorem State.passMs_frame (s : State) (ms : Nat) : ∃ m p x e,
    s.passMs ms = { s with
      clock := { s.clock with millis := m, phase := p }, pulses := { s.pulses with inputs := x }
      store := { s.store with eraseMs := e } } := by
  unfold State.passMs
  split
  · dsimp only
    split
    · exact ⟨_, _, _, _, rfl⟩
    · exact ⟨_, _, _, s.store.eraseMs, rfl⟩
  · split
    · exact ⟨s.clock.millis, _, s.pulses.inputs, s.store.eraseMs, rfl⟩
    · exact ⟨s.clock.millis, s.clock.phase, s.pulses.inputs, s.store.eraseMs, rfl⟩

/-- The end of a comparison window (R38) touches the windows and the ports alone. -/
theorem State.windowEnd_frame (s : State) (i : Fin 8) :
    ∃ p w, s.windowEnd i = { s with ports := p, pulses := { s.pulses with windows := w } } := by
  unfold State.windowEnd
  dsimp only
  split
  · split
    · obtain ⟨p, h⟩ := State.post_frame _ _ _ _ _ _ _
      exact ⟨p, _, by rw [h]; rfl⟩
    · exact ⟨_, _, rfl⟩
  · exact ⟨_, _, rfl⟩

/-- The end of every due window (R38) touches the windows and the ports alone. -/
theorem State.endWindows_frame (s : State) :
    ∃ p w, s.endWindows = { s with ports := p, pulses := { s.pulses with windows := w } } := by
  unfold State.endWindows
  generalize List.finRange 8 = l
  induction l generalizing s with
  | nil => exact ⟨_, _, rfl⟩
  | cons i rest ih =>
    rw [List.foldl_cons]
    obtain ⟨p, w, h⟩ := s.windowEnd_frame i
    obtain ⟨p', w', h'⟩ := ih (s.windowEnd i)
    exact ⟨p', w', by rw [h', h]⟩

/-- The beginning of a checkpoint (R168) touches the store alone: its program joins the array queue, or waits for the tick in
integration. -/
theorem State.beginCheckpoint_cases (s : State) (emergency : Bool) :
    (s.fiscal.tick.isSome = true ∧
      s.beginCheckpoint emergency = { s with store := { s.store with gatherDue := some emergency } }) ∨
    (s.fiscal.tick = none ∧ s.beginCheckpoint emergency =
      { s with store := { s.store with gatherDue := none }.enqueue (.checkpoint (s.gather emergency)) }) := by
  unfold State.beginCheckpoint
  cases h : s.fiscal.tick with
  | some l => exact .inl ⟨rfl, rfl⟩
  | none => exact .inr ⟨rfl, rfl⟩

/-- A commit that fails (R16) clears the approvals and the mark, and answers the third APPROVE STATE. -/
theorem State.failCommit_cases (s : State) :
    (s.station.commit = none ∧ s.failCommit = s) ∨
    ∃ c, s.station.commit = some c ∧ s.failCommit =
      ({ s with station := { s.station with commit := none, approvals := Table.replicate 3 false } } : State).respond
        c.approver .state [] := by
  unfold State.failCommit
  cases h : s.station.commit with
  | none => exact .inl ⟨rfl, rfl⟩
  | some c => exact .inr ⟨c, rfl, rfl⟩

/-- What a clamped move can give (R180): a backward move stops at the interval start and at 0, a forward one at the last
second of the interval, and one that would pass the last station time stays between the present one and it. -/
theorem State.clampedMove_cases (s : State) (step : Int) :
    let t := (s.clock.time : Int) + step
    (step ≤ 0 → s.clampedMove step = max t (max s.intervalStart 0)) ∧
    (0 < step → min t (s.intervalEnd - 1) ≤ lastTime → s.clampedMove step = min t (s.intervalEnd - 1)) ∧
    (0 < step → lastTime < min t (s.intervalEnd - 1) →
      s.clock.time ≤ s.clampedMove step ∧ s.clampedMove step ≤ max s.clock.time lastTime) := by
  refine ⟨fun h => ?_, fun h hle => ?_, fun h hlt => ?_⟩
  · simp [State.clampedMove, Int.not_lt.mpr h]
  · simp only [State.clampedMove, if_pos h, if_neg (Int.not_lt.mpr hle)]
  · simp only [State.clampedMove, if_pos h, if_pos hlt, State.moveNearLast]
    have := Nat.mod_lt (Config.moveToLast s.clock.time step) (Nat.zero_lt_succ (lastTime - s.clock.time))
    rw [Nat.succ_eq_add_one] at this
    omega

/-- Station time lies in its current interval (R176). -/
theorem State.time_in_interval (s : State) (h : 0 < s.img.intervalLength) :
    s.intervalStart ≤ s.clock.time ∧ (s.clock.time : Int) < s.intervalEnd := by
  have hd := Nat.div_add_mod (s.clock.time + s.img.dayOffset) s.img.intervalLength
  have hm := Nat.mod_lt (s.clock.time + s.img.dayOffset) h
  have hc : s.currentInterval * s.img.intervalLength = s.img.intervalLength * ((s.clock.time + s.img.dayOffset) / s.img.intervalLength) :=
    Nat.mul_comm _ _
  unfold State.intervalEnd State.intervalStart
  rw [hc]; omega

/-- A clamped move stays in the current interval and at or after the epoch (R180). -/
theorem State.clampedMove_inside (s : State) (step : Int) (h : 0 < s.img.intervalLength) :
    s.intervalStart ≤ s.clampedMove step ∧ s.clampedMove step < s.intervalEnd ∧ 0 ≤ s.clampedMove step := by
  obtain ⟨h1, h2⟩ := s.time_in_interval h
  obtain ⟨hb, hf, hn⟩ := s.clampedMove_cases step
  rcases Int.lt_or_le 0 step with hp | hp
  · rcases Int.lt_or_le lastTime (min ((s.clock.time : Int) + step) (s.intervalEnd - 1)) with hl | hl
    · have := hn hp hl; omega
    · rw [hf hp hl]; omega
  · rw [hb hp]; omega

end Sys2Proof.Machine
end

