-- ==== Sys2Proof/Laws/Ports.lean ====
section
/-! SUPPORT. What an arrival does at a port's notice queue, and what posting does to the ports: each said once. -/

namespace Sys2Proof.Machine

/-- An arrival touches the queue and its two marks only. -/
theorem Port.offer_eq (pt : Port) (n : Notice) :
    pt.offer n =
      { pt with queue := (pt.offer n).queue, halfArmed := (pt.offer n).halfArmed, dropping := (pt.offer n).dropping } := by
  unfold Port.offer; split
  · rfl
  · split
    · split <;> rfl
    · rfl

@[simp] theorem Port.offer_slot (pt : Port) (n : Notice) : (pt.offer n).slot = pt.slot := by rw [Port.offer_eq]
@[simp] theorem Port.offer_dropped (pt : Port) (n : Notice) : (pt.offer n).dropped = pt.dropped := by rw [Port.offer_eq]
@[simp] theorem Port.offer_filter (pt : Port) (n : Notice) : (pt.offer n).filter = pt.filter := by rw [Port.offer_eq]
@[simp] theorem Port.offer_dataOut (pt : Port) (n : Notice) : (pt.offer n).dataOut = pt.dataOut := by rw [Port.offer_eq]

@[simp] theorem Port.arrive_slot (pt : Port) (n : Notice) : (pt.arrive n).slot = pt.slot := by
  unfold Port.arrive; split <;> simp
@[simp] theorem Port.arrive_dropped (pt : Port) (n : Notice) : (pt.arrive n).dropped = pt.dropped := by
  unfold Port.arrive; split <;> simp
@[simp] theorem Port.arrive_filter (pt : Port) (n : Notice) : (pt.arrive n).filter = pt.filter := by
  unfold Port.arrive; split <;> simp
@[simp] theorem Port.arrive_dataOut (pt : Port) (n : Notice) : (pt.arrive n).dataOut = pt.dataOut := by
  unfold Port.arrive; split <;> simp

/-- Taking a frame and an arriving notice act on different parts of a port. -/
theorem Port.arrive_take (pt : Port) (n : Notice) : pt.take.arrive n = (pt.arrive n).take := by
  have ho : pt.take.offer n = (pt.offer n).take := by
    by_cases hd : pt.dropping = true
    · simp [Port.offer, Port.take, hd]
    · by_cases hl : pt.queue.length ≤ 30
      · by_cases hh : pt.queue.length = 15 ∧ pt.halfArmed = true
        · simp [Port.offer, Port.take, hd, hh.1, hh.2]
        · simp only [Port.offer, Port.take, hd, hl, hh, if_true, if_false, Bool.false_eq_true]
      · simp [Port.offer, Port.take, hd, hl]
  have ha : pt.take.admits n.kind = pt.admits n.kind := rfl
  unfold Port.arrive
  rw [ha, ho]
  split <;> rfl

/-- A queue's length after its last notice is raised. -/
theorem bumpTail_length (q : List Notice) : (bumpTail q).length = q.length := by
  induction q with
  | nil => rfl
  | cons a q ih => cases q with
    | nil => rfl
    | cons b q => simpa [bumpTail] using ih

/-- Raising the last notice keeps its kind. -/
theorem bumpValue_kind (n : Notice) : (bumpValue n).kind = n.kind := by unfold bumpValue; split <;> rfl

/-- The last notice of a raised queue is the last notice, raised. -/
theorem bumpTail_getLast? (q : List Notice) : (bumpTail q).getLast? = q.getLast?.map bumpValue := by
  induction q with
  | nil => rfl
  | cons a q ih => cases q with
    | nil => rfl
    | cons b q =>
      have hne : bumpTail (b :: q) ≠ [] := fun e => by
        have := congrArg List.length e; rw [bumpTail_length] at this; simp at this
      obtain ⟨x, l, hx⟩ := List.exists_cons_of_ne_nil hne
      rw [bumpTail, hx, List.getLast?_cons_cons, ← hx, ih, List.getLast?_cons_cons]

/-- Everything a delivery does: at each port the notices fold in, and nothing else of the state changes. -/
theorem State.deliver_eq (s : State) (rs : List Party) (n : Notice) :
    s.deliver rs n = { s with ports := (s.deliver rs n).ports } := rfl

/-- A party's port after a delivery that names it once. -/
theorem State.deliver_port_mem (s : State) {rs : List Party} (h : rs.Nodup) (n : Notice) {p : Party} (hp : p ∈ rs) :
    (s.deliver rs n).port p = (s.port p).arrive n := by
  have key : ∀ (rs : List Party) (t : Table Port 3), rs.Nodup →
      (rs.foldl (fun t p => t.modify (partyIndex p) fun pt => pt.arrive n) t).get (partyIndex p) =
        if p ∈ rs then (t.get (partyIndex p)).arrive n else t.get (partyIndex p) := by
    intro rs
    induction rs with
    | nil => intro t _; simp
    | cons q rs ih =>
      intro t hd
      obtain ⟨hq, hd⟩ := List.nodup_cons.1 hd
      rw [List.foldl_cons, ih _ hd]
      by_cases hpq : p = q
      · subst hpq; simp [hq]
      · have hne : partyIndex q ≠ partyIndex p := by
          intro e; apply hpq; revert e; cases p <;> cases q <;> simp [partyIndex]
        rw [Table.get_modify_ne _ _ hne]
        simp [hpq]
  have := key rs s.ports h
  simpa [State.deliver, State.port, hp] using this

/-- A party's port after a delivery that does not name it. -/
theorem State.deliver_port_not_mem (s : State) (rs : List Party) (n : Notice) {p : Party} (hp : p ∉ rs) :
    (s.deliver rs n).port p = s.port p := by
  have key : ∀ (rs : List Party) (t : Table Port 3), p ∉ rs →
      (rs.foldl (fun t p => t.modify (partyIndex p) fun pt => pt.arrive n) t).get (partyIndex p) =
        t.get (partyIndex p) := by
    intro rs
    induction rs with
    | nil => intro t _; rfl
    | cons q rs ih =>
      intro t hq
      obtain ⟨hpq, hq⟩ := not_or.1 (fun h => hq (List.mem_cons.2 h))
      rw [List.foldl_cons, ih _ hq]
      have hne : partyIndex q ≠ partyIndex p := by
        intro e; apply hpq; revert e; cases p <;> cases q <;> simp [partyIndex]
      exact Table.get_modify_ne _ _ hne
  simpa [State.deliver, State.port] using key rs s.ports hp

/-- Delivery leaves every slot, dropped mark, filter and data out line alone. -/
theorem State.deliver_port_kept (s : State) (rs : List Party) (n : Notice) (p : Party) :
    ((s.deliver rs n).port p).slot = (s.port p).slot ∧ ((s.deliver rs n).port p).dropped = (s.port p).dropped ∧
    ((s.deliver rs n).port p).filter = (s.port p).filter ∧ ((s.deliver rs n).port p).dataOut = (s.port p).dataOut := by
  have key : ∀ (rs : List Party) (t u : Table Port 3),
      u = rs.foldl (fun t p => t.modify (partyIndex p) fun pt => pt.arrive n) t →
      ∀ i, (u.get i).slot = (t.get i).slot ∧ (u.get i).dropped = (t.get i).dropped ∧
        (u.get i).filter = (t.get i).filter ∧ (u.get i).dataOut = (t.get i).dataOut := by
    intro rs
    induction rs with
    | nil => intro t u hu i; subst hu; exact ⟨rfl, rfl, rfl, rfl⟩
    | cons q rs ih =>
      intro t u hu i
      rw [List.foldl_cons] at hu
      obtain ⟨h1, h2, h3, h4⟩ := ih _ u hu i
      rw [h1, h2, h3, h4]
      by_cases hi : partyIndex q = i
      · subst hi; simp
      · rw [Table.get_modify_ne _ _ hi]; exact ⟨rfl, rfl, rfl, rfl⟩
  exact key rs s.ports _ rfl (partyIndex p)

/-- Posting is a delivery, or nothing in STARTING and BLANK. -/
theorem State.post_cases (s : State) (rs : List Party) (kind : NoticeKind) (subject : Nat) (value : BitVec 32)
    (marks kindByte : Nat) :
    (s.settled = true ∧ s.post rs kind subject value marks kindByte =
      s.deliver rs ⟨kind, subject, s.clock.time, value, s.clock.suspect, marks, kindByte⟩) ∨
    (s.settled = false ∧ s.post rs kind subject value marks kindByte = s) := by
  unfold State.post
  cases h : s.settled
  · exact .inr ⟨rfl, by simp⟩
  · exact .inl ⟨rfl, by simp⟩

/-- Posting leaves every slot, dropped mark, filter and data out line alone. -/
theorem State.post_port_kept (s : State) (rs : List Party) (kind : NoticeKind) (subject : Nat) (value : BitVec 32)
    (marks kindByte : Nat) (p : Party) :
    let t := s.post rs kind subject value marks kindByte
    (t.port p).slot = (s.port p).slot ∧ (t.port p).dropped = (s.port p).dropped ∧
    (t.port p).filter = (s.port p).filter ∧ (t.port p).dataOut = (s.port p).dataOut := by
  intro t
  rcases s.post_cases rs kind subject value marks kindByte with ⟨-, h⟩ | ⟨-, h⟩
  · have ht : t = s.deliver rs _ := h
    rw [ht]; exact s.deliver_port_kept ..
  · have ht : t = s := h
    rw [ht]; exact ⟨rfl, rfl, rfl, rfl⟩

/-- Taking a frame at a port and delivering a notice may be exchanged. -/
theorem State.deliver_take (s : State) (p : Party) (rs : List Party) (n : Notice) :
    (s.mapPort p Port.take).deliver rs n = (s.deliver rs n).mapPort p Port.take := by
  have key : ∀ (rs : List Party) (t : Table Port 3),
      rs.foldl (fun t q => t.modify (partyIndex q) fun pt => pt.arrive n) (t.modify (partyIndex p) Port.take) =
      (rs.foldl (fun t q => t.modify (partyIndex q) fun pt => pt.arrive n) t).modify (partyIndex p) Port.take := by
    intro rs
    induction rs with
    | nil => intro t; rfl
    | cons q rs ih =>
      intro t
      rw [List.foldl_cons, List.foldl_cons, ← ih]
      congr 1
      apply Table.ext_get
      intro i
      simp only [Table.modify, Table.get_set]
      by_cases h1 : partyIndex q = i <;> by_cases h2 : partyIndex p = i <;>
        simp [h1, h2, Port.arrive_take]
  simp only [State.deliver, State.mapPort, key]

/-- Taking a frame at a port and posting may be exchanged. -/
theorem State.post_take (s : State) (p : Party) (rs : List Party) (kind : NoticeKind) (subject : Nat)
    (value : BitVec 32) (marks kindByte : Nat) :
    (s.mapPort p Port.take).post rs kind subject value marks kindByte =
      (s.post rs kind subject value marks kindByte).mapPort p Port.take := by
  have hs : (s.mapPort p Port.take).settled = s.settled := rfl
  unfold State.post
  rw [hs]
  split
  · exact s.deliver_take p rs _
  · rfl

end Sys2Proof.Machine
end

