-- ==== Sys2Proof/Laws/Requests.lean ====
section
/-! SUPPORT. What a request can do, said once (R190, R191): it is ignored, dropped, refused STATE, or judged by its rule. -/

namespace Sys2Proof.Machine

variable {s : State} {p : Party} {r : Request} {rule : State → State × Reply}

/-- A request of a party in OPERATING or RECONFIGURING is never refused for the station state. -/
theorem State.stateRefuses_of_settled (h : s.settled = true) : s.stateRefuses r = false := by
  unfold State.settled at h
  unfold State.stateRefuses
  cases hs : s.station.state <;> simp_all

/-- A frame taken leaves the station, and so the image and the state, as they were. -/
theorem State.take_station : (s.mapPort p Port.take).station = s.station := rfl

@[simp] theorem State.take_img : (s.mapPort p Port.take).img = s.img := rfl
@[simp] theorem State.take_settled : (s.mapPort p Port.take).settled = s.settled := rfl
@[simp] theorem State.take_stateRefuses : (s.mapPort p Port.take).stateRefuses r = s.stateRefuses r := rfl

/-- A frame that the port takes is judged. -/
theorem State.takeFrame_heard {judge : State → State × Reply} (h : Hears s p) :
    s.takeFrame p judge = State.finish p (judge (s.mapPort p Port.take)) := by
  unfold State.takeFrame
  rw [if_pos h.1]
  cases hs : (s.port p).slot with
  | working => exact absurd hs h.2
  | idle => rfl
  | ready r => rfl

/-- A request that is heard and not refused for the station state is judged by its rule. -/
theorem State.request_heard (h : Hears s p) (hr : s.stateRefuses r = false) :
    s.request p r rule = State.finish p (rule (s.mapPort p Port.take)) := by
  simp [State.request, State.takeFrame_heard h, hr]

/-- The same in OPERATING and RECONFIGURING. -/
theorem State.request_served (h : Serves s p) : s.request p r rule = State.finish p (rule (s.mapPort p Port.take)) :=
  State.request_heard h.2 (State.stateRefuses_of_settled h.1)

/-- Everything a request can do. -/
theorem State.request_cases (s : State) (p : Party) (r : Request) (rule : State → State × Reply) :
    (s.portsRespond = false ∧ s.request p r rule = s) ∨
    (s.portsRespond = true ∧ (s.port p).slot = .working ∧ s.request p r rule = s.mapPort p Port.drop) ∨
    (Hears s p ∧ s.stateRefuses r = true ∧ s.request p r rule = (s.mapPort p Port.take).respond p .state []) ∨
    (Hears s p ∧ s.stateRefuses r = false ∧
      s.request p r rule = State.finish p (rule (s.mapPort p Port.take))) := by
  cases hp : s.portsRespond with
  | false => exact .inl ⟨rfl, by simp [State.request, State.takeFrame, hp]⟩
  | true =>
    by_cases hw : (s.port p).slot = .working
    · exact .inr (.inl ⟨rfl, hw, by simp [State.request, State.takeFrame, hp, hw]⟩)
    · have h : Hears s p := ⟨hp, hw⟩
      cases hr : s.stateRefuses r with
      | true =>
        refine .inr (.inr (.inl ⟨h, rfl, ?_⟩))
        simp [State.request, State.takeFrame_heard h, hr, refuse, State.finish]
      | false => exact .inr (.inr (.inr ⟨h, rfl, State.request_heard h hr⟩))

/-- A response to a taken frame is the answered state. -/
theorem State.respond_take (s : State) (p : Party) (r : Result) (data : List Byte) :
    (s.mapPort p Port.take).respond p r data = answered s p r data := by
  simp only [State.respond, State.mapPort, answered, Table.modify, State.port, Table.get_set_same]
  congr 1
  apply Table.ext_get
  intro i
  by_cases h : partyIndex p = i
  · subst h; simp [Port.respond, Port.take]
  · rw [Table.get_set_ne _ _ h, Table.get_set_ne _ _ h, Table.get_set_ne _ _ h]

/-- A refusal of a taken frame is the answered state. -/
theorem finish_refuse (s : State) (p : Party) (r : Result) :
    State.finish p (refuse (s.mapPort p Port.take) r) = answered s p r [] := s.respond_take p r []

/-- An answer to a taken frame that changes nothing is the answered state. -/
theorem finish_answer (s : State) (p : Party) (data : List Byte) :
    State.finish p (answer (s.mapPort p Port.take) data) = answered s p .ok data := s.respond_take p .ok data

/-- A completed rule on a taken frame. -/
theorem finish_done (s : State) (p : Party) (r : Result) (data : List Byte) :
    State.finish p (s.mapPort p Port.take, .done r data) = answered s p r data := s.respond_take p r data

/-- A frame whose request waits for the store. -/
theorem mapPort_take (s : State) (p : Party) : s.mapPort p Port.take = awaiting s p := rfl

/-- The port of the answered party. -/
theorem answered_port (s : State) (p : Party) (r : Result) (data : List Byte) :
    (answered s p r data).port p =
      { s.port p with slot := .ready ⟨(s.port p).dropped, r, data⟩, dropped := false, dataOut := [] } := by
  simp [answered, State.port]

/-- The ports of the other parties. -/
theorem answered_port_ne (s : State) {p q : Party} (r : Result) (data : List Byte) (h : p ≠ q) :
    (answered s p r data).port q = s.port q := by
  simp [answered, State.port, Table.get_set_ne _ _ (partyIndex_ne h)]

end Sys2Proof.Machine
end

