-- ==== Sys2Proof/Tests/Slice0.lean ====
section
/-! SUPPORT. Tests: ill-formed commands refused, frames read, worked cases of the spec, and for each statement with
hypotheses a state and operands that meet them. Expected values are the spec's, or worked by hand from its rules. -/

namespace Sys2Proof.Tests

open Sys2Proof Sys2Proof.Machine

/-! ### WellFormed refuses ill-formed commands -/

theorem test_wf_byte : (Instr.readSlot .works 256).wellFormed = false ∧ (Instr.readSlot .works 255).wellFormed = true := by
  decide

theorem test_wf_word : (Instr.setFilter .works 4294967296).wellFormed = false ∧
    (Instr.approve .works 4294967295).wellFormed = true := by decide

theorem test_wf_signed : (Instr.adjustTime .works 128).wellFormed = false ∧
    (Instr.adjustTime .works (-128)).wellFormed = true ∧ (Instr.writeConfig .works 1 0 2147483648).wellFormed = false := by
  decide

theorem test_wf_lifetime : (Instr.declare .town 12 0 65536).wellFormed = false := by decide

theorem test_wf_bands : (Instr.stageTariff .works 0 1 (List.replicate 15 ⟨0, 0, 0⟩) 0).wellFormed = false ∧
    (Instr.stageTariff .works 0 1 [⟨65536, 0, 0⟩] 0).wellFormed = false := by decide

theorem test_wf_units : (Instr.recordUnitFail 35 [] 0#8).wellFormed = false ∧
    (Instr.configProgramDone (some (59, []))).wellFormed = false := by decide

theorem test_wf_torn : (Instr.pfw ⟨60, [], .untouched⟩).wellFormed = false ∧
    (Instr.mainSupplyLoss ⟨59, [], .untouched⟩).wellFormed = true := by decide

theorem test_wf_unit_bytes : (Instr.recordUnitFail 0 (List.replicate 33 0#8) 0#8).wellFormed = false := by decide

theorem test_wf_sector_bytes : (Instr.sectorEraseDone (List.replicate 4097 0#8)).wellFormed = false := by
  decide +kernel

/-! ### Frames (R189, R190, section 11.2) -/

/-- No word spells a command: the table gives no bits. -/
theorem test_no_words : decodeTableWord 8 0x80 = none := rfl

/-- R190's own frames: READ TIME is 80h 00h B6h, FETCH is 00h 00h 00h. -/
theorem test_frame_readTime : readTransaction .town [0x80#8, 0x00#8, 0xB6#8] = .readTime .town := by decide

theorem test_frame_fetch : readTransaction .works [0x00#8, 0x00#8, 0x00#8, 0xFF#8] = .fetch .works 0#8 0#8 1 := by decide

theorem test_frame_bad_check : readTransaction .plant [0x80#8, 0x00#8, 0xB7#8] = .badFrame .plant .badCheck := by decide

theorem test_frame_overlong : readTransaction .plant [0x80#8, 121#8, 0x00#8] = .badFrame .plant .overlong := by decide

theorem test_frame_incomplete : readTransaction .works [0x80#8] = .incompleteFrame .works := by decide

theorem test_frame_unknown : readFrame .works 0x04 [] = .badFrame .works .unknownCode := by decide

theorem test_frame_wrong_length : readFrame .works 0x20 [] = .badFrame .works (.wrongLength .readSlot) := by decide

/-- DECLARE: number, value, lifetime. -/
theorem test_frame_declare : readFrame .town 0x30 [12#8, 0#8, 0#8, 1#8, 0x2C#8, 0#8, 60#8] = .declare .town 12 300 60 := by
  decide

/-- SET LIMITS: entry, minimum, maximum, ramp, threshold. -/
theorem test_frame_setLimits : readFrame .works 0x47 [1#8, 0#8, 0#8, 0#8, 2#8, 0#8, 0#8, 0#8, 3#8, 0#8, 0#8, 0#8, 4#8,
    0#8, 0#8, 0#8, 5#8] = .setLimits .works 1 2 3 4 5 := by decide

/-- STAGE TARIFF: contract, effective period, band count, bands, percentage. -/
theorem test_frame_stage : readFrame .works 0x60 [2#8, 0#8, 0#8, 0#8, 7#8, 1#8, 0#8, 0#8, 0#8, 0#8, 0#8, 0#8, 0#8, 9#8,
    50#8] = .stageTariff .works 2 7 [⟨0, 0, 9⟩] 50 := by decide

/-- ADJUST TIME: a signed byte. -/
theorem test_frame_adjust : readFrame .works 0x81 [0xFF#8] = .adjustTime .works (-1) := by decide

/-- WRITE CONFIG: item, index, signed value. -/
theorem test_frame_writeConfig : readFrame .works 0x10 [0x13#8, 23#8, 0xFF#8, 0xFF#8, 0xFF#8, 0xFE#8] =
    .writeConfig .works 0x13 23 (-2) := by decide

/-! ### Worked cases of the spec -/

/-- R37: 100 L every 2,400 ms is 150,000 L/h; 10 L every 7,000 ms is 5,142 L/h; 60,000 ms after the latest stamp it is 0. -/
theorem test_flow : instantaneousFlow ⟨0, none, some 2400, some 0, 0⟩ 100 = 150000 ∧
    instantaneousFlow ⟨0, none, some 7000, some 0, 59999⟩ 10 = 5142 ∧
    instantaneousFlow ⟨0, none, some 7000, some 0, 60000⟩ 10 = 0 := by decide

/-- R14, condition 4: a stream entry that names the RECORD contract and is not of kind POWER breaks it, present or absent. -/
theorem test_condition4 : (Image.factory.put 0x0B 7 3).breaks4 ≠ [] ∧ Image.factory.breaks4 = [] := by decide +kernel

/-- R13: the check word of the bytes "123456789" under its polynomial, order and complement is CBF43926h. -/
theorem test_crc32 : crc32 [0x31#8, 0x32#8, 0x33#8, 0x34#8, 0x35#8, 0x36#8, 0x37#8, 0x38#8, 0x39#8] = 0xCBF43926 := by
  decide +kernel

/-- R13: 470 values. -/
theorem test_image_size : Image.factory.values.length = 470 := by decide +kernel

/-- Section 2.3, steps 1 to 3: the values of three records. -/
theorem test_records : judgeRecord [5#8, 2#8, 0x34#8, 0x4A#8, 0#8, 0x79#8] false = some ⟨5, 144458, false, false⟩ ∧
    judgeRecord [0x0C#8, 0xFF#8, 0xFC#8, 0x18#8, 2#8, 0x15#8] false = some ⟨12, -1000, false, true⟩ ∧
    judgeRecord [5#8, 0#8, 0xC3#8, 0x7E#8, 0#8, 0xB8#8] false = some ⟨5, 50046, false, false⟩ := by decide

/-- Section 2.3, steps 4 and 5: a parity error spoils the record at position 3, and slot number 26 ends one. -/
theorem test_assembler : assemble (.assembling 3 [7#8] false) 1#8 false = (.assembling 4 [7#8, 1#8] true, none) ∧
    assemble (.assembling 2 [] false) 0x1A#8 true = (.hunting, none) := by decide

/-- Section 2.6: counts 1,212 and 1,207 exceed a limit of 4, counts 1,180 and 1,178 do not. -/
theorem test_window : CheckWindow.mismatch ⟨1212, 1207, 60, false⟩ 4 = true ∧
    CheckWindow.mismatch ⟨1180, 1178, 60, false⟩ 4 = false := by decide

/-- Section 3.9: the heat tick of S4. -/
theorem test_heat_tick : heatCoefficient (meanTemperature 9540 5215) = 11338 ∧
    heatIncrement 300 9540 5215 20 = 14711055000 := by decide

/-- Section 3.9: what the tick leaves in the stream. -/
theorem test_heat_carry :
    let u := (⟨12345678, 987654321, 0, 0, 0, 0, none⟩ : Stream).integrate 54001 ⟨14711055000, false, false, false⟩ true
    u.total = 12345693 ∧ u.residual = 698709321 ∧ u.frameSum = 14711055000 := by decide

/-- Section 3.10: a tick at exact correction, and a truncating tick. -/
theorem test_gas : gasIncrement 20000 121590 5463 895 = 17900000000 ∧ gasIncrement 1 100000 0 1000 = 986923 := by decide

/-- Section 3.12: a rollover. -/
theorem test_rollover : (⟨999999998, 400000000, 0, 0, 0, 0, none⟩ : Stream).rollsOver 1750000000 = true ∧
    ((⟨999999998, 400000000, 0, 0, 0, 0, none⟩ : Stream).integrate 1 ⟨1750000000, false, false, false⟩ true).total = 0 := by
  decide

/-- Section 3.12, ticks 1 and 4: below θ nothing is metered, at θ the increment is 229,580,000 µWh. -/
theorem test_theta : heatIncrement 2000 5010 5000 20 = 0 ∧ heatIncrement 1000 5030 5010 20 = 229580000 := by decide

/-- Section 5.8: the bands of frames 1 to 8. -/
theorem test_bands : [41000, 40000, 41500, 42000, 39000, 20000, 21900, 22000].foldl
    (fun (bs : List HolderBand) level => bs ++ [nextBand Image.factory (bs.getLastD .normal) level]) [] =
    [.normal, .low, .low, .normal, .low, .lowlow, .lowlow, .low] := by decide +kernel

/-- Section 5.7: the targets of E0, E1 and E2, and the trimmed grant of E2. -/
theorem test_targets :
    Consumer.target { Consumer.absent with state := .running, confirmed := 110000, limits := ⟨20000, 150000, 20000, 15000⟩ }
      120000 = 120000 ∧
    Consumer.target { Consumer.absent with state := .running, confirmed := 50000, limits := ⟨20000, 90000, 15000, 5000⟩ }
      52093 = 52093 ∧
    frameGrant 134445 102307 30000 = 102307 := by decide

/-- Section 6.6: from 50,000 the ramp of 10,000 lets a request of 70,000 reach 60,000, and the change is posted. -/
theorem test_ramp :
    let c : Consumer := { Consumer.absent with state := .running, confirmed := 50000, limits := ⟨10000, 80000, 10000, 5000⟩ }
    c.target 70000 = 60000 ∧ c.mustPost 60000 = true ∧ c.mustPost 54999 = false := by decide

/-- Section 7.7: an interval at offset 97 folds into entry 95. -/
theorem test_fold : IntervalEntry.fold ⟨95, 24000, 24200, true, false, false, true, 1⟩
    ⟨0, 10000, false, false, 8900, false, none, []⟩ true = ⟨95, 34000, 33100, true, false, true, true, 2⟩ := by decide

/-- Section 8.8: the degraded prices, and the bands of minutes 900 and 1386. -/
theorem test_tariff :
    let t := Tariff.fix 7 [⟨1320, 360, 31000⟩, ⟨360, 1320, 48500⟩] 70
    t.bands.map PricedBand.degraded = [21700, 33950] ∧ t.bandAt 900 = some 1 ∧ t.bandAt 1386 = some 0 ∧
    firstUncovered [⟨1320, 360, 31000⟩, ⟨360, 1320, 48500⟩] = none := by decide +kernel

/-- R133: with day offset 0, start hour 6 and P = 1, B1 is 21,600; with offset 50,000, start hour 0 and P = 7, 554,800. -/
theorem test_firstBoundary : firstBoundary ((Image.factory.put 0x33 0 1).put 0x34 0 6) 0 = 21600 ∧
    firstBoundary ((Image.factory.put 0x33 0 7).put 0x46 0 50000) 0 = 554800 := by decide +kernel

/-- Section 10.4: a record without interval entries takes 5 units, one of 48 entries 20. -/
theorem test_units : recordUnits 0 = 5 ∧ recordUnits 48 = 20 ∧ recordUnits 96 = 35 := by decide

/-- Section 11.4, steps 2 to 4: the 32nd notice is replaced by QUEUE FULL with value 1, and the next only counts. -/
theorem test_queue_full :
    let n : Notice := ⟨.flare, 0, 0, 0#32, false, 0, 0⟩
    let pt : Port := ⟨.idle, false, List.replicate 31 n, false, false, Port.allKinds, []⟩
    ((pt.offer n).queue.getLast?.map Notice.value, (pt.offer n).dropping) = (some 1#32, true) ∧
    (((pt.offer n).offer n).queue.length, ((pt.offer n).offer n).queue.getLast?.map Notice.value) = (32, some 2#32) := by
  decide +kernel

/-- Section 11.4, step 5: the CRC of 01h 00h is 15h. -/
theorem test_crc8 : crc8 [0x01#8, 0x00#8] = 0x15#8 := by decide

/-! ### States for the witnesses below -/

/-- An image with several items replaced. -/
def puts (img : Image) (values : List (Nat × Nat × Int)) : Image :=
  values.foldl (fun i x => i.put x.1 x.2.1 x.2.2) img

/-- A consistent image: stream S0 is a GAS supply stream, Works operates consumer E0, the holder slots have their kinds. -/
def img1 : Image := puts Image.factory
  [(0x01, 0, 1), (0x0A, 0, 1), (0x06, 0, 0), (0x07, 0, 1), (0x08, 0, 23), (0x10, 0, 1), (0x13, 0, 100000),
   (0x10, 22, 3), (0x10, 23, 2), (0x13, 23, 2400), (0x20, 0, 0), (0x24, 0, 2000), (0x28, 0, 5000)]

/-- A station under that image, without anything due. -/
def stationIn (state : StationState) : State :=
  { State.reset with
    station := { State.reset.station with state := state, inForce := some ⟨1, img1⟩, edit := some img1 }
    startup := none
    alloc := firstAllocator img1
    tracker := firstTracker img1
    clock := { Clock.atStart with time := 100, domain := 100, valid := true, frameTimer := some (0, 10) } }

/-- OPERATING. -/
def base : State := stationIn .operating

/-- RECONFIGURING. -/
def recon : State := stationIn .reconfiguring

/-- BLANK. -/
def blank : State :=
  { State.reset with station := { State.reset.station with state := .blank, edit := some img1 }, startup := none }

theorem hears_base (p : Party) : Hears base p := by cases p <;> exact ⟨by decide, by decide⟩

theorem serves_base (p : Party) : Serves base p := ⟨by decide, hears_base p⟩

theorem hears_recon (p : Party) : Hears recon p := by cases p <;> exact ⟨by decide, by decide⟩

theorem hears_blank (p : Party) : Hears blank p := by cases p <;> exact ⟨by decide, by decide⟩

/-- A change of one consumer, of the store, of the sensor, of the clock. -/
def withConsumer (c : Consumer) : State := base.setConsumer 0 c

/-- E0 as it waits for an answer to a posted grant. -/
def waiting (retry : Nat) (timer : Nat) : Consumer :=
  { Consumer.absent with
    state := .changing, limits := ⟨0, 2000, 1000, 1000⟩, pending := some 1500, posted := some 1500, id := 7
    retry := retry, timer := timer }

/-- The store of `base` changed. -/
def withStore (f : Store → Store) : State := base.mapStore f

/-- The account that `base` opens, closed. -/
def account1 : Account := { Account.empty with period := 1, finish := 86400 }

/-- Its period record. -/
def record1 : PeriodRecord := ⟨0, false, 0, 1, 1, account1⟩

/-- An entry of the index: a record of contract 0 that Works sells and Plant buys. -/
def entry1 (sellerMark buyerMark : Bool) : IndexEntry := ⟨11, 0, 5, some ⟨0, 1, 0, 1, 1, sellerMark, buyerMark⟩⟩

/-- The index holds one record, in sector 11. -/
def stored (sellerMark buyerMark : Bool) : State :=
  withStore fun st => { st.setState 11 .full with index := [entry1 sellerMark buyerMark] }

/-- A notice. -/
def notice1 : Notice := ⟨.flare, 0, 100, 5#32, false, 0, 0⟩

/-- A commit in the phase that waits for the erase of sector 0, in a state. -/
def committing (s : State) : State :=
  { s with
    station := { s.station with commit := some ⟨.town, 1, .erasingOther⟩ }
    store := { s.store with current := some (.erase 0), eraseList := [0] } }

/-! ### A witness for the hypotheses of each statement -/

theorem witness_StepRunsFrontCommand : ({ base with pending := [.departure] } : State).pending = .departure :: [] := rfl

theorem witness_RequestsJudgedBySlotAndState :
    (let s := base.mapPort .works Port.take
     s.portsRespond = true ∧ (s.port .works).slot = .working ∧ requestSent (.readTime .works) = some (.works, .readTime)) ∧
    (Hears State.reset .town ∧ State.reset.station.state = .starting) ∧
    (Hears blank .town ∧ blank.station.state = .blank ∧ requestSent (.readTime .town) = some (.town, .readTime)) ∧
    (requestSent (.readStation .town) = some (.town, .readStation)) :=
  ⟨by decide, ⟨⟨by decide, by decide⟩, by decide⟩, ⟨hears_blank .town, by decide, by decide⟩, by decide⟩

theorem witness_FetchShowsTheSlot : base.portsRespond = true := by decide

theorem witness_NoticesTakenAndFiltersSet :
    Serves base .works ∧ (base.port .works).queue = [] ∧
    (let s := base.mapPort .works fun pt => { pt with queue := List.replicate 8 notice1 }
     Serves s .works ∧ (s.port .works).queue = notice1 :: List.replicate 7 notice1) :=
  ⟨serves_base .works, by decide, ⟨by decide, by decide, by decide⟩, by decide⟩

/-- Queues of 15, 30, 31 and 32 notices. -/
theorem witness_NoticeQueueTakesAnArrival :
    (Port.Wf ⟨.idle, false, List.replicate 15 notice1, true, false, Port.allKinds, []⟩) ∧
    (Port.Wf ⟨.idle, false, List.replicate 30 notice1, false, false, Port.allKinds, []⟩) ∧
    (Port.Wf ⟨.idle, false, List.replicate 31 notice1, false, false, Port.allKinds, []⟩) ∧
    (Port.Wf ⟨.idle, false, List.replicate 31 notice1 ++ [notice1.full], false, true, Port.allKinds, []⟩) :=
  ⟨⟨by decide, by decide, by decide⟩, ⟨by decide, by decide, by decide⟩, ⟨by decide, by decide, by decide⟩,
   ⟨by decide, by decide, fun _ => ⟨_, rfl, rfl⟩⟩⟩

theorem witness_RequestsLeaveOtherPortsAlone :
    requestSent (.readTime .works) = some (.works, .readTime) ∧ Party.plant ≠ .works ∧
    ∃ t, exec (.readTime .works) base = .next t := ⟨by decide, by decide, _, rfl⟩

theorem witness_ReadsComplete :
    Serves base .plant ∧ base.station.state ≠ .starting ∧ base.station.inForce.map Programmed.image = some img1 ∧
    base.station.edit = some img1 ∧ (findItem 0x4C).map Item.count = some 3 ∧
    .plant = base.img.seller 3 ∧ .plant = base.img.buyer 0 ∧ base.img.isRecord 3 = true ∧ base.img.isRecord 0 = false :=
  ⟨serves_base .plant, by decide, rfl, rfl, by decide, by decide +kernel, by decide +kernel, by decide +kernel,
   by decide +kernel⟩

theorem witness_WriteConfigPutsTheItem :
    Hears blank .town ∧ blank.station.state = .blank ∧ blank.station.commit = none ∧ blank.store.clearing = none ∧
    Hears recon .town ∧ recon.station.state = .reconfiguring ∧ recon.station.commit = none ∧ recon.store.clearing = none ∧
    (findItem 0x13).map (fun it => (it.reconf, decide (23 < it.count), it.values.allows (-5000))) = some (true, true, true) ∧
    (findItem 0x13).map (fun it => (decide (24 < it.count), it.values.allows (-5001))) = some (false, false) ∧
    (findItem 0x41).map Item.reconf = some false ∧ findItem 0x14 = none ∧
    Hears base .town ∧ base.station.state = .operating ∧ (committing recon).station.commit ≠ none :=
  ⟨hears_blank .town, by decide, by decide, by decide, hears_recon .town, by decide, by decide, by decide, by decide,
   by decide, by decide, by decide, hears_base .town, by decide, by decide⟩

theorem witness_WrittenItemReadsBack :
    Image.factory.values.length = 470 ∧ (findItem 0x5B).map Item.count = some 1 ∧ (findItem 0x37).map Item.count = some 24 :=
  ⟨test_image_size, by decide, by decide⟩

/-- No other party has approved; both others have; the target sector is erased, or holds a byte. -/
theorem witness_ApprovalsBeginTheCommit :
    Hears recon .town ∧ recon.station.state = .reconfiguring ∧ recon.station.commit = none ∧ recon.store.clearing = none ∧
    recon.editImage.inconsistency = none ∧ recon.station.approvals.get (partyIndex .town) = false ∧
    Hears blank .town ∧ blank.station.state = .blank ∧ blank.editImage.inconsistency = none ∧
    sectorBlank recon.store.cells 0 = true ∧ recon.store.current = none ∧
    sectorBlank [(0, 0#8)] 0 = false ∧ 0 ∉ recon.store.eraseList ∧
    ((∀ word : Nat, word + 1 ≠ word) ∧ Hears base .town ∧ base.station.state = .operating ∧
      (committing recon).station.commit ≠ none) ∧
    Image.factory.inconsistency = some (9, [(0x10, 22), (0x50, 0), (0x10, 23), (0x51, 0)]) ∧
    (recon.station.approvals.set (partyIndex .town) true).get (partyIndex .town) = true ∧
    blank.station.inForce = none ∧ recon.station.inForce = some ⟨1, img1⟩ ∧ 1 < 4294967294 :=
  ⟨hears_recon .town, by decide, by decide, by decide, by decide +kernel, by decide, hears_blank .town, by decide,
   by decide +kernel, by decide, by decide, by decide, by decide,
   ⟨Nat.succ_ne_self, hears_base .town, by decide, by decide⟩, by decide +kernel, by decide, rfl, rfl, by decide⟩

theorem witness_RecommissionAndItsWindow :
    Hears base .town ∧ base.station.state = .operating ∧
    (let s := base.mapStation fun x => { x with recommission := ⟨Table.replicate 3 false, some 0⟩
                                                clearStore := ⟨Table.replicate 3 false, some 0⟩ }
     s.blocksRun = true ∧ s.station.recommission.left = some 0 ∧ s.station.clearStore.left = some 0) :=
  ⟨hears_base .town, by decide, by decide⟩

theorem witness_ClearStoreMarksAndClears :
    Hears recon .works ∧ recon.station.state = .reconfiguring ∧ recon.station.commit = none ∧ recon.store.clearing = none :=
  ⟨hears_recon .works, by decide, by decide, by decide⟩

theorem witness_CharactersMakeReadings :
    base.inputsRun = true ∧ base.sensor.linkUp = true ∧ charValid 0x7E#8 false true = true ∧
    base.sensor.assembler = .hunting ∧
    (let s := base.mapSensor fun x => { x with
       assembler := .assembling 7 [23#8, 0#8, 0#8, 0#8, 0#8] false, queue := List.replicate 15 ⟨0, 0, false, false⟩ }
     s.sensor.assembler = .assembling 7 [23#8, 0#8, 0#8, 0#8, 0#8] false ∧ s.sensor.queue.length < 16 ∧
     (23#8).toNat < 24 ∧ charValid 23#8 false true = true ∧
     23#8 = 23#8 ^^^ 0#8 ^^^ 0#8 ^^^ 0#8 ^^^ 0#8 ∧ 0#8 ≠ 23#8 ^^^ 0#8 ^^^ 0#8 ^^^ 0#8 ^^^ 0#8) ∧
    (let s (a : Assembler) := base.mapSensor fun x => { x with
       assembler := a, queue := List.replicate 16 ⟨0, 0, false, false⟩ }
     (s (.assembling 2 [] false)).sensor.assembler = .assembling 2 [] false ∧
     (s (.assembling 6 [1#8, 2#8, 3#8, 4#8] true)).sensor.assembler = .assembling 6 [1#8, 2#8, 3#8, 4#8] true ∧
     (s .hunting).inputsRun = true ∧ 16 ≤ (s .hunting).sensor.queue.length ∧ (s .hunting).sensor.overrunArmed = true ∧
     ((s .hunting).mapSensor fun x => { x with overrunArmed := false }).sensor.overrunArmed = false) ∧
    charValid 1#8 false true = false ∧ charValid 0#8 false false = false := by decide

theorem witness_BreaksTakeTheLinkDown :
    base.inputsRun = true ∧ base.sensor.breakStanding = false ∧ base.sensor.linkUp = true ∧
    (let s := base.mapSensor fun x => { x with linkUp := false }
     s.inputsRun = true ∧ s.sensor.breakStanding = false ∧ s.sensor.linkUp = false ∧ s.sensor.assembler = .hunting ∧
     charValid 0x00#8 false true = true ∧ charValid 0x7E#8 false true = true ∧ s.sensor.breakAt ≤ s.clock.time ∧
     s.clock.time - s.sensor.breakAt ≤ 4294967295) := by decide

theorem witness_FlagsChangeWhenAsked :
    base.settled = true ∧ Serves base .works ∧ .works = base.img.flagOwner 3 ∧ Serves base .town ∧
    .town ≠ base.img.flagOwner 3 := ⟨by decide, serves_base .works, by decide +kernel, serves_base .town, by decide +kernel⟩

theorem witness_SubstitutionRuleGivesTheValue :
    (base.sensor.slots.get 23).state ≠ .fresh ∧ base.img.fixedRule 23 = false ∧
    (base.sensor.slots.get 23).lastGood = none ∧ (img1.put 0x12 23 1).fixedRule 23 = true ∧
    (Slot.restored (some 5)).state ≠ .fresh ∧ (Slot.restored (some 5)).lastGood = some 5 :=
  ⟨by decide, by decide +kernel, by decide, by decide +kernel, by decide, by decide⟩

/-- A good reading at the edge of its range, and one past it. -/
theorem witness_ReadingsReachTheirSlots :
    base.blocksRun = true ∧ base.fiscal.tick = none ∧ (base.mapSensor fun x => { x with
      queue := [⟨22, 200000, false, false⟩] }).sensor.queue = ⟨22, 200000, false, false⟩ :: [] ∧
    (base.img.slotKind 22).good 200000 = true ∧ (base.img.slotKind 22).good 200001 = false ∧
    (base.sensor.slots.get 22).state ≠ .substituted ∧ (Slot.restored (some 5)).state = .substituted :=
  ⟨by decide, by decide, rfl, by decide +kernel, by decide +kernel, by decide, by decide⟩

theorem witness_SlotsExpireAtTheirMaximumAge :
    base.blocksRun = true ∧ ∃ sl : Slot, sl.ageDue = true ∧ sl.state = .fresh ∧ base.img.maxAge 22 ≤ sl.age ∧
      ((base.setSlot 22 sl).sensor.slots.get 22 = sl) :=
  ⟨by decide, ⟨.fresh, some 5, some 90, 10, false, none, true⟩, by decide, by decide, by decide +kernel, by decide⟩

/-- An edge that has lasted exactly its width, and one 1 ms short; no stamp, and two; a window of 60 ticks. -/
theorem witness_PulsesAndCheckWindows :
    (let s := base.mapInput 7 fun x => { x with edge := some ⟨0, 10, 0⟩ }
     s.inputsRun = true ∧ ((s.passMs 10).pulses.inputs.get 7).edge = some ⟨0, 10, 10⟩ ∧
     ((s.passMs 9).pulses.inputs.get 7).edge = some ⟨0, 10, 9⟩ ∧ (10 : Nat) ≤ 10 ∧ (9 : Nat) < 10) ∧
    (⟨0, none, none, none, 0⟩ : PulseInput).previous = none ∧ (⟨0, none, some 5, some 3, 7⟩ : PulseInput).latest = some 5 ∧
    (let s := base.mapPulses fun x => { x with windows := x.windows.set 7 ⟨10, 5, 60, false⟩ }
     s.blocksRun = true ∧ 60 ≤ (s.pulses.windows.get 7).ticks) := by decide

theorem witness_IncrementsOfTheKinds :
    (0 : Int) ≤ 20 ∧ (5010 : Int) - 5000 < 20 ∧ (20 : Int) ≤ 5030 - 5010 ∧ (0 : Int) ≤ 101325 ∧ (0 : Int) ≤ 895 ∧
    (-1 : Int) < 0 ∧ (17999 : Int) = ((1000 * 17 + 999 : Nat) : Int) ∧ coefficientTable[17]? = some 10560 ∧
    coefficientTable[18]? = some 10460 ∧ base.img.streamKind 0 = .gas ∧ base.img.streamKind 7 = .absent ∧
    (img1.put 0x01 7 2).streamKind 7 = .heat ∧ (img1.put 0x01 7 3).streamKind 7 = .power := by decide +kernel

theorem witness_CarriesConserveEnergy : (0 : Nat) ≤ 4294967295 ∧ (4294967295 : Nat) ≤ 4294967295 := by decide

theorem witness_TickIntegrationMetersEveryStream :
    (let s : State := { base with fiscal := { base.fiscal with tick := some 100 } }
     s.blocksRun = true ∧ s.fiscal.tick = some 100 ∧ s.station.commit = none) ∧
    base.img.present 0 = true ∧ base.img.present 7 = false ∧ base.store.gatherDue = none ∧
    (base.station.state = .operating ∧ base.clock.frameTimer = some (0, 10) ∧ 0 + 1 < 10 ∧ 10 ≤ 9 + 1 ∧
      recon.station.state ≠ .operating) ∧
    (∀ i, base.img.present i = true → base.img.streamKind i ≠ .power) ∧
    (let img := img1.put 0x01 7 3
     img.present 7 = true ∧ img.streamKind 7 = .power ∧
     ∀ j, img.present j = true → img.streamKind j = .power → j = 7) :=
  ⟨by decide, by decide +kernel, by decide +kernel, by decide, by decide, by decide +kernel, by decide +kernel⟩

theorem witness_TickBoundaryRaisesTheTick : base.blocksRun = true ∧ NothingDue base ∧ base.clock.domain < 4294967295 :=
  ⟨by decide, ⟨by decide, by decide, by decide +kernel, by decide, by decide, by decide, by decide, by decide, by decide⟩,
   by decide⟩

theorem witness_DeclareTakesTheFigures :
    Serves base .town ∧ base.declOwner 12 = some .town ∧ Serves base .works ∧ base.declOwner 0 = some .works :=
  ⟨serves_base .town, by decide, serves_base .works, by decide +kernel⟩

theorem witness_DeclarationsAge :
    base.blocksRun = true ∧
    (let r : Declaration := ⟨.fresh, some ⟨5, 30, 70⟩, 29, true⟩
     r.ageDue = true ∧ r.declared = some ⟨5, 30, 70⟩ ∧ 30 ≤ r.age + 1 ∧ (base.setDecl 12 r).decls.get 12 = r) ∧
    (⟨.stale, some ⟨5, 30, 70⟩, 29, true⟩ : Declaration).state = .stale := by decide

theorem witness_HolderBandAndTerm :
    (0 : Int) ≤ 2400 ∧ img1.holderTarget ≤ 100000 ∧ (99999 : Int) ≤ img1.holderTarget :=
  ⟨by decide, by decide +kernel, by decide +kernel⟩

theorem witness_LadderArithmetic :
    (0 < (shareFuel (fun _ => 1) 2 [0]).2 ∧
      0 < (⟨.running, ⟨0, 2000, 1000, 1000⟩, 1, none, none, 0, 0, 0, none, false⟩ : Consumer).confirmed) ∧
    (let c : Consumer := ⟨.ready, ⟨500, 2000, 1000, 1000⟩, 0, none, none, 0, 0, 0, some 500, false⟩
     (c.cap = some 500 ∧ c.limits.minimum ≤ min 500 c.limits.maximum ∧ c.confirmed = 0 ∧ 0 < min 1 500) ∧
     min 499 c.limits.maximum < c.limits.minimum) ∧
    (walkLadder base.alloc.consumers (fun _ => 1) 1 [0]).1 = [] ++ ⟨0, 1, 1⟩ :: [] := by decide +kernel

/-- A completed frame waits to be run. -/
def framed : State := base.mapAlloc fun a => { a with frameDue := some 100 }

theorem grantsWf_framed : GrantsWf framed := by
  refine ⟨by decide +kernel, ?_, ?_⟩
  · intro e
    have : ∀ e : Fin 12, ((framed.consumer e).state = .out ∨ (framed.consumer e).state = .ready) ∧
        (framed.consumer e).confirmed = 0 := by decide +kernel
    obtain ⟨h, hc⟩ := this e
    refine ⟨fun _ => hc, fun hr => ?_⟩
    rcases h with h | h <;> rw [h] at hr <;> cases hr
  · intro c h
    have hck : ∀ i : Fin 8, (framed.store.ckpts.get i).content = .blank := by decide
    rcases h with ⟨i, w, h⟩ | h | ⟨n, h⟩
    · rw [hck i] at h; cases h
    · cases h
    · cases h

theorem witness_GrantsAndFlareAreBounded : GrantsWf framed ∧ framed.dueFrame = some 100 := ⟨grantsWf_framed, by decide⟩

/-- Entries E0 and E1 of rank 0 ask for 500 and 600 without supply: both are trimmed to 0. -/
def trimming : State :=
  let img := puts img1 [(0x20, 1, 0), (0x24, 1, 2000), (0x28, 1, 5000), (0x2B, 0, 500), (0x2B, 1, 600)]
  { base with
    station := { base.station with inForce := some ⟨1, img⟩ }
    alloc := firstAllocator img }

theorem witness_FrameCompletionRunsTheFrame : framed.dueFrame = some 100 ∧ 0 < base.img.heatEfficiency ∧
    (let f := trimming.frameSummary 100 1 0
     trimming.rotationOrder 0 = [] ++ 0 :: [1] ∧ 2 ≤ (trimming.rotationOrder 0).length ∧
     ((trimming.rotationOrder 0).any fun e => (f.outcomes.get e).trim) = true ∧
     (f.outcomes.get 0).target = some 500 ∧ (trimming.rotationOrder 1).length ≤ 1) := by decide +kernel

/-- A grant equal to the confirmed one, one to be posted, and one below the threshold of 1000. -/
theorem witness_FrameGrantsArePostedOrAbsorbed :
    let c : Consumer := { Consumer.absent with state := .running, confirmed := 1500, limits := ⟨0, 2000, 1000, 1000⟩ }
    let s := withConsumer c
    1500 = (s.consumer 0).confirmed ∧ 500 ≠ (s.consumer 0).confirmed ∧
    (s.consumer 0).limits.threshold ≤ ((500 : Int) - (s.consumer 0).confirmed).natAbs ∧
    ¬(s.consumer 0).limits.threshold ≤ ((501 : Int) - (s.consumer 0).confirmed).natAbs := by decide +kernel

theorem witness_FirstExpiryPostsAgain :
    let s := withConsumer (waiting 0 0)
    s.blocksRun = true ∧ (s.consumer 0).state = .changing ∧ (s.consumer 0).timer = 0 ∧ (s.consumer 0).retry = 0 ∧
    (s.consumer 0).pending = some 1500 := by decide +kernel

theorem witness_SecondExpiryMakesUnresponsive :
    let s := withConsumer (waiting 1 0)
    s.blocksRun = true ∧ (s.consumer 0).state = .changing ∧ (s.consumer 0).timer = 0 ∧ (s.consumer 0).retry = 1 := by
  decide +kernel

/-- Entry 12 is past the last, entry 1 is absent, entry 0 is operated by Works. -/
theorem witness_EntryRequestsObeyTheOperator :
    Serves base .plant ∧ base.img.operator 1 = none ∧ base.img.operator 0 = some .works ∧ Party.works ≠ .plant :=
  ⟨serves_base .plant, by decide +kernel, by decide +kernel, by decide⟩

theorem operates_base : Operates base .works 0 := by show base.img.operator 0 = some .works; decide +kernel

theorem witness_GrantAnswersSettle :
    let s := withConsumer (waiting 0 5)
    let u := withConsumer { waiting 0 0 with state := .unresponsive, pending := none }
    (Serves s .works ∧ Operates s .works 0 ∧ (s.consumer 0).state = .changing ∧ (s.consumer 0).pending = some 1500 ∧
      7 = (s.consumer 0).id) ∧
    (Serves u .works ∧ Operates u .works 0 ∧ (u.consumer 0).state = .unresponsive ∧ (u.consumer 0).posted = some 1500) ∧
    (Serves base .works ∧ Operates base .works 0 ∧
      ¬((base.consumer 0).state = .changing ∨ (base.consumer 0).state = .unresponsive)) :=
  ⟨⟨⟨by decide, by decide, by decide⟩, operates_base, by decide +kernel, by decide +kernel, by decide +kernel⟩,
   ⟨⟨by decide, by decide, by decide⟩, operates_base, by decide +kernel, by decide +kernel⟩,
   ⟨serves_base .works, operates_base, by decide +kernel⟩⟩

theorem witness_ReportsParkingAndLimits :
    Serves base .works ∧ Operates base .works 0 ∧ (base.consumer 0).state ≠ .tripped ∧
    (let s := withConsumer { waiting 0 0 with state := .tripped, pending := none }
     Serves s .works ∧ Operates s .works 0 ∧ (s.consumer 0).state = .tripped) :=
  ⟨serves_base .works, operates_base, by decide +kernel, ⟨by decide, by decide, by decide⟩, operates_base, by decide +kernel⟩

theorem witness_NominationsEnterAndLeaveTheQueue :
    Hears base .plant ∧ [(⟨1, 5⟩ : Nomination), ⟨8, 6⟩].Pairwise (fun a b => a.interval < b.interval) :=
  ⟨hears_base .plant, by decide⟩

/-- R119 and R121: a start 2 s away passes a gate of 2, a start 1 s away passes a gate of 0 and no other. -/
theorem test_gate :
    let s (gate time : Nat) : State :=
      { base with
        station := { base.station with inForce := some ⟨1, img1.put 0x42 0 gate⟩ }
        clock := { base.clock with time := time } }
    (s 2 1798).gateClosed 1 = false ∧ (s 1 1799).gateClosed 1 = true ∧ (s 0 1799).gateClosed 1 = false := by
  decide +kernel

/-- Intervals of 1,800 s: label 1,799 lies inside interval 0, label 1,800 ends it. -/
theorem witness_HandOffsFollowTheExport :
    (1799 + base.img.dayOffset) % base.img.intervalLength ≠ 0 ∧
    1800 + base.img.dayOffset = (base.tracker.running + 1) * base.img.intervalLength ∧
    base.tracker.queue.head?.map Nomination.interval ≠ some (base.tracker.running + 1) ∧
    (base.mapTracker fun t => { t with queue := [⟨1, 5⟩] }).tracker.queue = ⟨1, 5⟩ :: [] ∧
    (1 : Nat) = base.tracker.running + 1 ∧ base.img.recordContract = some 3 ∧ (95 : Nat) ≤ 95 ∧ 95 < 96 :=
  ⟨by decide +kernel, by decide +kernel, by decide +kernel, rfl, by decide +kernel, by decide +kernel, by decide, by decide⟩

/-- Contract 0 of `base` with a staged change. -/
def staged (consented : Bool) : State :=
  base.mapContract 0 fun k => { k with staged := some ⟨5, 1, [⟨0, 0, 9⟩], 50, consented, 90⟩ }

theorem witness_TariffsAreStagedAndConsented :
    (Serves base .works ∧ base.img.isRecord 0 = false ∧ .works = base.img.seller 0 ∧
      tariffFiguresOk [⟨0, 0, 9⟩] 50 = true ∧ firstUncovered [⟨0, 0, 9⟩] = none ∧
      (base.contract 0).opened.period + 1 ≤ 12 ∧ 12 ≤ (base.contract 0).opened.period + 12 ∧
      ∀ g, (base.contract 0).staged = some g → g.consented = false) ∧
    (Serves (staged false) .plant ∧ .plant = (staged false).img.buyer 0 ∧
      ((staged false).contract 0).staged = some ⟨5, 1, [⟨0, 0, 9⟩], 50, false, 90⟩ ∧
      ((staged true).contract 0).staged = some ⟨5, 1, [⟨0, 0, 9⟩], 50, true, 90⟩ ∧ (6 : Nat) ≠ 5) :=
  ⟨⟨serves_base .works, by decide +kernel, by decide +kernel, by decide, by decide +kernel, by decide, by decide,
    fun g h => by cases h⟩,
   ⟨⟨by decide, by decide, by decide⟩, by decide +kernel, by decide, by decide, by decide⟩⟩

theorem witness_CarriesAreCreditedToTheirBand :
    let t := Tariff.fix 7 [⟨1320, 360, 31000⟩, ⟨360, 1320, 48500⟩] 70
    t.bandAt 360 = some 1 ∧ t.bands[1]? = some ⟨⟨360, 1320, 48500⟩, 33950⟩ ∧ 1 < 6 ∧ t.bandAt 359 = some 0 := by decide

/-- No closing account and room; the record in the store; a closing account waiting; no room; a change staged for the period that
opens; a record that just fits a sector in thought, and one that goes to the next. -/
theorem witness_PeriodsCloseOrExtend :
    let s := base.mapContract 0 fun k => { k with nextBoundary := 86400 }
    let held := { s with store := { s.store with index := [⟨10, 0, 5, some ⟨0, 0, 0, 1, 1, false, false⟩⟩] } }
    let sectors := s.store.sectors.map fun r => { r with state := RecState.full }
    let full := { s with store := { s.store with nextUnit := 124, sectors := sectors } }
    let kept := s.mapContract 0 fun k => { k with closing := some account1 }
    ((s.contract 0).nextBoundary = 86400 ∧ (s.contract 0).closing = none ∧
      s.store.holdsRecord 0 (s.contract 0).opened.period = false ∧ s.store.hasRoom (s.contract 0).opened.units = true) ∧
    (held.contract 0).closing = none ∧ held.store.holdsRecord 0 (held.contract 0).opened.period = true ∧
    full.store.holdsRecord 0 (full.contract 0).opened.period = false ∧
    full.store.hasRoom (full.contract 0).opened.units = false ∧ (kept.contract 0).closing.isSome = true ∧
    (((staged true).contract 0).staged.filter fun g => g.effective == ((staged true).contract 0).period + 1).isSome = true ∧
    (⟨10, 123, [10]⟩ : ThoughtPos).next + 5 ≤ 128 ∧ 128 < (⟨10, 124, [10]⟩ : ThoughtPos).next + 5 ∧
    base.store.thinkPlace ⟨10, 124, [10]⟩ 5 = some ⟨11, 5, [11, 10]⟩ := by decide +kernel

theorem witness_RecordRequestsWaitAndAreServed :
    (Serves base .works ∧ (base.store.sector 63).state = .erased) ∧
    (Serves (stored false false) .works ∧ ((stored false false).store.sector 11).state = .full ∧
      (stored false false).store.entryAt 11 0 = some (entry1 false false) ∧ 1 ≤ (entry1 false false).lastPart ∧
      partyCode .works = 0 ∧ partyCode .plant ≠ 0 ∧ partyCode .plant = 1 ∧ partyCode .town ≠ 0 ∧ partyCode .town ≠ 1) ∧
    (stored true true).store.entryAt 11 0 = some (entry1 true true) ∧
    (withStore fun st => { st with current := some (.read .works (entry1 false false) 0 false) }).store.current =
      some (.read .works (entry1 false false) 0 false) ∧
    (withStore fun st => { st with current := some (.mark .works 11 0 true 0 1 false) }).store.current =
      some (.mark .works 11 0 true 0 1 false) :=
  ⟨⟨serves_base .works, by decide⟩, ⟨⟨by decide, by decide, by decide⟩, by decide +kernel⟩, by decide +kernel, rfl, rfl⟩

/-- A waiting checkpoint whose target is still ERASING, which the array passes over. -/
def blocked (rest : List ArrayOp) : State :=
  withStore fun st => { st.listErase 2 with queue := .checkpoint (base.gather false) :: rest }

/-- Each kind of operation behind one that cannot be served; nothing that can be served, with and without an erase to do; a
record that fits the write sector exactly, and one that moves on; after the power-fail warning, a checkpoint or nothing. -/
theorem witness_ArrayServesTheQueueThenErases :
    (let s := blocked [.record record1, .mark .works 11 0 true 0 1 false, .read .works (entry1 false false) 0 false]
     s.blocksRun = true ∧ s.store.current = none ∧ s.store.pfw = false ∧
     s.store.queue = [.checkpoint (base.gather false)] ++ .record record1 ::
       [.mark .works 11 0 true 0 1 false, .read .works (entry1 false false) 0 false] ∧
     s.store.canServe (.checkpoint (base.gather false)) = false ∧ s.store.eraseList = 2 :: [] ∧
     s.store.place record1.units = some (s.store.writeSector, 0)) ∧
    (let st := { base.store with nextUnit := 124 }
     st.place record1.units = some (11, 0) ∧ 11 ≠ st.writeSector ∧ 10 ≤ st.writeSector ∧ st.writeSector ≤ 63 ∧
     ({ base.store with nextUnit := 123 } : Store).place record1.units = some (10, 123)) ∧
    base.store.ckptTarget = .write 2 ∧ sectorBlank base.store.cells 1 = true ∧
    ({ base.store with ckpts := Table.replicate 8 ⟨.retired, .blank⟩ } : Store).ckptTarget = .none ∧
    ((blocked []).store.queue = [.checkpoint (base.gather false)] ∧ (blocked []).store.suspended = none) ∧
    (withStore fun st => { st with suspended := some 12, eraseList := [12] }).store.suspended = some 12 ∧
    base.store.queue = [] ∧ base.store.eraseList = [] ∧
    (let s := withStore fun st => { st with pfw := true, queue := [.checkpoint (base.gather true)] }
     s.store.pfw = true ∧ s.store.queue = [.checkpoint (base.gather true)] ∧ s.store.ckptTarget = .write 2) ∧
    ({ base.store.setState 10 .erasing with nextUnit := 0 } : Store).sector 10 = ⟨.erasing, false, 0⟩ ∧
    (let st := { base.store with current := some (.erase 12) }
     st.current = some (.erase 12) ∧ st.canServe (.record record1) = true ∧
     (blocked []).store.canServe (.checkpoint (base.gather false)) = false) ∧
    (let s := blank.mapStore fun st => { st with
       queue := [.record record1, .config 1 1 img1], eraseList := [12, 0] }
     s.board.mainOn = true ∧ s.station.state = .blank ∧ s.store.current = none ∧ s.store.pfw = false ∧
     s.store.queue = [.record record1] ++ .config 1 1 img1 :: [] ∧ sectorBlank s.store.cells 1 = true ∧
     s.store.suspended = none ∧ s.store.eraseList = [12] ++ 0 :: []) ∧ State.reset.station.state = .starting := by
  refine ⟨⟨by decide, by decide, by decide, rfl, by decide, by decide, by decide +kernel⟩, by decide +kernel, by decide, by decide,
    by decide, ⟨rfl, by decide⟩, rfl, by decide, by decide, ⟨rfl, rfl, by decide⟩, by decide, ⟨rfl, by decide +kernel, by decide⟩,
    ⟨by decide, rfl, by decide, by decide, rfl, by decide, by decide, rfl⟩, rfl⟩

/-- The record of `base` is being programmed at sector 10, unit 0. -/
def programming (pfw : Bool) : State :=
  withStore fun st => { st with current := some (.record record1 10 0), pfw := pfw }

/-- The first unit of the attempt reads all 00h: the void program leaves its tag 00h, and the record goes to unit 1. -/
theorem witness_RecordProgramsEnd :
    (programming false).store.current = some (.record record1 10 0) ∧ 0 < record1.units ∧
    (let left : List Byte := List.replicate 32 0x00#8
     let cells := failedCells (programming false).store.cells (10 * 4096 + 0 * 32) record1.bytes 0 left 0x00#8
     let st := (programming false).store.voidAttempt 10 0 cells
     programFails (programming false).store.cells (10 * 4096 + 0 * 32 + 32 * 0) (record1.bytes.drop (32 * 0)) left = true ∧
     readCell cells (10 * 4096 + 0 * 32) = 0x00#8 ∧ (st.sector 10).fails < 3 ∧ st.writeSector = 10 ∧
     unitSpan cells 10 0 = some 1 ∧ st.place record1.units = some (10, 1)) ∧
    (programming true).store.pfw = true ∧ (programming false).store.pfw = false ∧
    (let s := (programming false).mapStore fun st => st.mapSector 10 fun r => { r with fails := 2 }
     let left : List Byte := List.replicate 32 0xFF#8
     let cells := failedCells s.store.cells (10 * 4096 + 0 * 32) record1.bytes 0 left 0xFF#8
     let st := s.store.voidAttempt 10 0 cells
     programFails s.store.cells (10 * 4096 + 0 * 32 + 32 * 0) (record1.bytes.drop (32 * 0)) left = true ∧
     readCell cells (10 * 4096 + 0 * 32) ≠ 0x00#8 ∧ unitSpan cells 10 0 = none ∧ 3 ≤ (st.sector 10).fails ∧
     (st.retire 10).place record1.units = some (11, 0) ∧
     ((st.mapSector 11 fun r => { r with state := .full }).retire 10).place record1.units = none ∧
     ({ (st.mapSector 11 fun r => { r with state := .full }) with nextUnit := 124 } : Store).place record1.units = none) :=
  ⟨rfl, by decide, by decide +kernel, rfl, rfl, by decide +kernel⟩

theorem witness_ErasesEnd :
    (withStore fun st => { st with current := some (.erase 63) }).store.current = some (.erase 63) ∧
    (withStore fun st => { st with current := some (.erase 9) }).store.current = some (.erase 9) ∧
    (withStore fun st => { st with current := some (.erase 10) }).store.current = some (.erase 10) ∧
    base.store.writeSector = 10 ∧ base.store.writeSector ≠ 63 ∧ 9 * 4096 ≤ 9 * 4096 + 4095 ∧
    (([] : List Byte).take 4096).all (fun b => b == 0xFF#8) = true ∧
    ([0x00#8].take 4096).all (fun b => b == 0xFF#8) = false ∧ Cells.wf base.store.cells = true := by
  refine ⟨rfl, rfl, rfl, by decide, by decide, by decide, by decide, by decide, by decide⟩

theorem witness_CommitsRunToTheirEnd :
    (let s : State := { committing recon with store := { recon.store with current := some (.config 0 2 img1) } }
     s.store.current = some (.config 0 2 img1) ∧ s.station.commit = some ⟨.town, 1, .erasingOther⟩ ∧
     1 - 0 ∉ s.store.eraseList ∧
     programFails s.store.cells (0 * 4096 + 32 * 0) ((imageBytes 2 img1).drop (32 * 0)) [0x00#8] = true) ∧
    (let s := committing recon
     s.store.current = some (.erase 0) ∧ s.station.commit = some ⟨.town, 1, .erasingOther⟩ ∧ s.fiscal.tick = none ∧
     s.station.state = .reconfiguring ∧ s.img.operator 0 = some .works ∧ s.editImage.operator 0 = some .works ∧
     (img1.put 0x20 0 1).operator 0 = some .plant ∧ (img1.put 0x20 0 255).operator 0 = none ∧
     s.img.operator 1 = none ∧ (img1.put 0x20 1 1).operator 1 = some .plant) :=
  ⟨⟨rfl, rfl, by decide, by decide +kernel⟩, rfl, rfl, by decide, by decide, by decide +kernel, by decide +kernel,
   by decide +kernel, by decide +kernel, by decide +kernel, by decide +kernel⟩

theorem witness_CommitFromBlankStartsTheStation :
    let s := committing blank
    s.store.current = some (.erase 0) ∧ s.station.commit = some ⟨.town, 1, .erasingOther⟩ ∧ s.fiscal.tick = none ∧
    s.station.state = .blank ∧ (s.editImage.operator 0 ≠ none ∧ s.editImage.rank 0 = 0) ∧
    (∀ e, ¬(s.editImage.operator e ≠ none ∧ s.editImage.rank e = 7)) ∧ s.editImage.startHour 3 < 24 :=
  ⟨rfl, rfl, by decide, by decide, by decide +kernel, by decide +kernel, by decide +kernel⟩

/-- A periodic checkpoint that is due, alone and with one outstanding; one whose program is being served in sector 9. -/
theorem witness_CheckpointsAreGatheredAndHeld :
    (let s : State := { base with clock := { base.clock with ckptTicks := 900 } }
     s.blocksRun = true ∧ s.store.pfw = false ∧ 900 ≤ s.clock.ckptTicks ∧ s.store.ckptOutstanding = false ∧
     s.fiscal.tick = none ∧ s.store.current = none) ∧
    (withStore fun st => { st with queue := [.checkpoint (base.gather false)] }).store.ckptOutstanding = true ∧
    (withStore fun st => { st with current := some (.checkpoint (base.gather false) 9) }).store.current =
      some (.checkpoint (base.gather false) 9) := ⟨by decide, by decide, rfl⟩

theorem witness_PowerFailWarningGathersTheCheckpoint :
    base.board.mainOn = true ∧ base.store.pfw = false ∧ base.settled = true ∧ base.store.servesCkpt = false ∧
    base.fiscal.tick = none ∧ blank.board.mainOn = true ∧ blank.store.pfw = false ∧ blank.settled = false ∧
    (withStore fun st => { st with pfw := true }).store.pfw = true ∧
    (withStore fun st => { st with current := some (.checkpoint (base.gather false) 2) }).store.servesCkpt = true ∧
    (withStore fun st => { st with current := some (.config 1 4294967294 img1) }).store.current =
      some (.config 1 4294967294 img1) ∧ Cells.wf base.store.cells = true ∧ sectorBlank base.store.cells 1 = true ∧
    base.store.suspended ≠ some 1 := by
  refine ⟨by decide, by decide, by decide, by decide, by decide, by decide, by decide, by decide, rfl, rfl, rfl, by decide,
    by decide, by decide⟩

/-- Steps of −61, 0 and −60 without a partner, and of 60 with Works' step of 60 pending. -/
theorem witness_TimeIsAdjustedInsideTheInterval :
    Serves base .town ∧ (-61 : Int) < -60 ∧ base.partner .town (-60) = none ∧
    (let s := base.setAdjustment .works (some ⟨60, 90⟩)
     Serves s .town ∧ s.partner .town 60 = some (.works, 60) ∧ 0 < s.img.intervalLength) ∧
    ∃ t, exec (.adjustTime .town (-60)) base = .next t :=
  ⟨serves_base .town, by decide, by decide, ⟨⟨by decide, by decide, by decide⟩, by decide, by decide +kernel⟩, _, rfl⟩

theorem witness_PinsAndSupplies :
    requestSent (.readTime .town) = some (.town, .readTime) ∧ 9 < 10 ∧ base.board.mainOn = true ∧
    (let s : State := { base with board := ⟨false, false⟩ }
     s.board.mainOn = false ∧ s.clock.valid = true ∧ s.clock.domain < 4294967295) ∧ blank.clock.valid = false := by decide

/-- Sector 0 holds an image of 470 values −1: generation 1, and the check word of 1880 bytes FFh. -/
def restartable (mainOn resetLow : Bool) : State :=
  { base with
    board := ⟨mainOn, resetLow⟩
    store := { base.store with
      cells := [(0, 0x00#8), (1, 0x00#8), (2, 0x00#8), (3, 0x01#8), (1884, 0x5C#8), (1885, 0xC1#8), (1886, 0xB5#8),
        (1887, 0x1D#8)]
      ckpts := base.store.ckpts.set 0 ⟨.held, .good (base.gather false) false⟩ } }

set_option maxRecDepth 100000 in
/-- A low pulse of exactly 10 µs, and the return of the supply; an image and a good checkpoint are found; a backup domain that is
Valid, Lost and Behind; a closing account whose record the store does not hold, and one whose record it holds. -/
theorem witness_RestartsEnterStarting :
    (10 ≤ 10 ∧ (restartable true true).board.resetLow = true ∧ (restartable true true).board.mainOn = true) ∧
    (restartable false false).board.mainOn = false ∧ (foundImage (restartable false false).store.cells).isSome = true ∧
    (foundCheckpoint (restartable false false).store).isSome = true ∧
    ((restartable false false).clock.valid = true ∧ (base.gather false).label ≤ (restartable false false).clock.domain ∧
      Clock.atStart.valid = false ∧ ({ base.clock with domain := 99 } : Clock).domain <
        (({ base with clock := { base.clock with lastLabel := 100 } } : State).gather false).label) ∧
    (let kept := (base.mapContract 0 fun k => { k with closing := some account1 }).gather false
     (kept.billing.contracts.get 0).closing = some account1 ∧ (kept.billing.contracts.get 1).closing = none) ∧
    (Store.erasedArray.rebuilt none none).holdsRecord 0 1 = false ∧
    ({ Store.erasedArray with cells := programBytes [] (10 * 4096) record1.bytes }.rebuilt none none).holdsRecord 0 1 =
      true :=
  ⟨by decide, by decide, by decide +kernel, by decide, by decide, by decide, by decide +kernel, by decide +kernel⟩

theorem witness_DepartureEndsStarting :
    (State.reset.board.mainOn = true ∧ State.reset.startup = some ⟨.reset, true, false, false, none, none, 0, none⟩ ∧
      (∀ p, (State.reset.port p).queue = []) ∧ ∀ p, (State.reset.port p).dropping = false) ∧
    (let r : Restarting := ⟨.powerUp, false, true, false, some .valid, some 1, 0, some 5⟩
     r.toBlank = false ∧ r.resume = some 5) ∧
    (let r : Restarting := ⟨.powerUp, false, true, false, some .valid, some 1, 0, none⟩
     let s : State := { stationIn .starting with startup := some r }
     s.board.mainOn = true ∧ s.station.state = .starting ∧ s.startup = some r ∧ r.toBlank = false ∧ r.resume = none ∧
     s.clock.domain < 4294967295 ∧ s.settled = false) ∧
    (let img := (stationIn .starting).img
     0 < img.intervalLength ∧ (1799 : Nat) < ((0 + img.dayOffset) / img.intervalLength + 1) * img.intervalLength - img.dayOffset ∧
     ((0 + img.dayOffset) / img.intervalLength + 1) * img.intervalLength - img.dayOffset ≤ 1800) :=
  ⟨⟨by decide, rfl, by intro p; cases p <;> rfl, by intro p; cases p <;> rfl⟩, by decide,
   ⟨by decide, rfl, rfl, rfl, rfl, by decide, by decide⟩, by decide +kernel⟩

/-- Every step answers a next state, so an invariant and a step are met together by any state that has the invariant. -/
theorem witness_step : ∃ t, step base = .next t := ⟨_, rfl⟩

theorem witness_EveryStepKeepsTheNoticeQueues : PortsWf base ∧ ∃ t, step base = .next t :=
  ⟨by intro p; cases p <;> exact ⟨by decide, by decide, by decide⟩, witness_step⟩

theorem witness_EveryStepKeepsTheConsumers : ConsumersWf base ∧ GrantsWf framed ∧ (∃ t, step base = .next t) ∧
    ∃ t, step framed = .next t := by
  refine ⟨?_, grantsWf_framed, witness_step, _, rfl⟩
  intro e
  have : ∀ e : Fin 12, (base.consumer e).pending = none ∧ (base.consumer e).state ≠ .changing ∧
      (base.consumer e).retry = 0 ∧ (base.consumer e).timer = 0 := by decide +kernel
  obtain ⟨h1, h2, h3, h4⟩ := this e
  exact ⟨by simp [h1, h2], by simp [h3], fun _ => ⟨h4, h3⟩⟩

/-- No checkpoint is held in `base`. -/
theorem holds_base (c : Checkpoint) (h : base.store.Holds c) : False := by
  have hck : ∀ i : Fin 8, (base.store.ckpts.get i).content = .blank := by decide
  rcases h with ⟨i, w, h⟩ | h | ⟨n, h⟩
  · rw [hck i] at h; cases h
  · cases h
  · cases h

theorem witness_EveryStepKeepsTheFigures : FiguresWf base ∧ SensorWf base ∧ ∃ t, step base = .next t :=
  ⟨⟨by decide, fun c h => (holds_base c h).elim⟩, ⟨by decide, by decide⟩, witness_step⟩

theorem witness_EveryStepKeepsTheNominations : NominationsWf base ∧ ∃ t, step base = .next t :=
  ⟨⟨⟨by decide, by decide⟩, fun c h => (holds_base c h).elim⟩, witness_step⟩

theorem witness_EveryStepKeepsTheArray : ArrayWf (restartable true false) ∧ ∃ t, step (restartable true false) = .next t :=
  ⟨by show Cells.wf _ = true; decide, _, rfl⟩

theorem witness_StationMovesOnlyAsAllowed : StationWf base ∧ ∃ t, exec (.recommission .works) base = .next t :=
  ⟨⟨by decide, by decide⟩, _, rfl⟩

end Sys2Proof.Tests
end

section

/-! # Proofs: the sensor link and the pulse inputs -/

namespace Sys2Proof.Machine

/-- R28: outside FRESH only the rule of the slot decides: FIXED takes the fixed value, HOLD the last good value
and, before there is one, the fixed value. -/
theorem valueInUse_of_not_fresh (img : Image) (i : Fin 24) (sl : Slot) (h : sl.state ≠ .fresh) :
    valueInUse img i sl =
      if img.fixedRule i then img.fixedValue i else sl.lastGood.getD (img.fixedValue i) := by
  unfold valueInUse
  split
  case h_1 hfresh => exact absurd hfresh h
  case h_2 => rfl

theorem State.slotValue_of_fixedRule (s : State) (i : Fin 24) (h : (s.sensor.slots.get i).state ≠ .fresh)
    (hrule : s.img.fixedRule i = true) : s.slotValue i = s.img.fixedValue i := by
  rw [slotValue, valueInUse_of_not_fresh _ _ _ h, if_pos hrule]

theorem State.slotValue_of_holdRule (s : State) (i : Fin 24) (h : (s.sensor.slots.get i).state ≠ .fresh)
    (hrule : s.img.fixedRule i = false) :
    s.slotValue i = (s.sensor.slots.get i).lastGood.getD (s.img.fixedValue i) := by
  rw [slotValue, valueInUse_of_not_fresh _ _ _ h, if_neg (by simp [hrule])]

/-- Settles O16, from what each of the two rules gives a slot outside FRESH. -/
theorem substitutionRuleGivesTheValue : Obligations.SubstitutionRuleGivesTheValue := by
  intro s i h
  refine ⟨s.slotValue_of_fixedRule i h, fun hrule => ?_⟩
  have hvalue := s.slotValue_of_holdRule i h hrule
  constructor
  · intro v hgood
    rw [hvalue, hgood, Option.getD_some]
  · intro hnone
    rw [hvalue, hnone, Option.getD_none]

end Sys2Proof.Machine
end


section

/-! # Proofs: gas allocation -/

namespace Sys2Proof.Machine

/-- The supply-marked present streams are picked in one pass over the eight streams. -/
theorem Image.presentStreams_filter_supplyMark (img : Image) :
    img.presentStreams.filter img.supplyMark =
      (List.finRange 8).filter fun i => decide (img.present i = true ∧ img.supplyMark i = true) := by
  rw [Image.presentStreams, List.filter_filter]
  congr 1
  funext i
  rw [Bool.decide_and, Bool.decide_eq_true, Bool.decide_eq_true, Bool.and_comm]

/-- Settles O26: a sum with 0 for every stream outside the supply splits into the sum over the supply's streams
and a sum of zeros over the others. -/
theorem supplySumsMarkedStreams : Obligations.SupplySumsMarkedStreams := by
  intro s
  rw [State.supply, Image.presentStreams_filter_supplyMark, List.sum_map_ite, List.sum_map_zero, add_zero]

end Sys2Proof.Machine
end

section

/-! # Proofs: grants and consumer states -/

namespace Sys2Proof

variable {α β : Type} {n : Nat}

theorem Table.set_get_self (t : Table α n) (i : Fin n) : t.set i (t.get i) = t := by
  apply Table.ext_get
  intro j
  rw [Table.get_set]
  split
  case isTrue hij => rw [hij]
  case isFalse => rfl

theorem Table.map_set (f : α → β) (t : Table α n) (i : Fin n) (x : α) :
    (t.set i x).map f = (t.map f).set i (f x) := by
  apply Table.ext_get
  intro j
  simp only [Table.get_map, Table.get_set, apply_ite f]

end Sys2Proof

namespace Sys2Proof.Machine

/-- R79: the held sum is over the amounts that the consumers hold. -/
theorem State.heldSum_eq_sum_map (s : State) :
    s.heldSum = (s.alloc.consumers.map Consumer.holds).entries.sum := rfl

/-- The held sum sees of a consumer only the amount that it holds. -/
theorem State.setConsumer_heldSum_of_holds_eq (s : State) (e : Fin 12) (c : Consumer)
    (h : c.holds = (s.consumer e).holds) : (s.setConsumer e c).heldSum = s.heldSum := by
  have hmap : (s.alloc.consumers.set e c).map Consumer.holds = s.alloc.consumers.map Consumer.holds := by
    rw [Table.map_set, h, State.consumer, ← Table.get_map Consumer.holds, Table.set_get_self]
  rw [heldSum_eq_sum_map, heldSum_eq_sum_map, ← hmap]
  rfl

@[simp] theorem State.post_consumer (s : State) (rs : List Party) (k : NoticeKind) (i : Nat) (v : BitVec 32)
    (m b : Nat) (e : Fin 12) : (s.post rs k i v m b).consumer e = s.consumer e := by
  rw [consumer, post_alloc, consumer]

@[simp] theorem State.post_heldSum (s : State) (rs : List Party) (k : NoticeKind) (i : Nat) (v : BitVec 32)
    (m b : Nat) : (s.post rs k i v m b).heldSum = s.heldSum := by
  rw [heldSum, post_alloc, heldSum]

@[simp] theorem State.setConsumer_img (s : State) (e : Fin 12) (c : Consumer) : (s.setConsumer e c).img = s.img :=
  State.img_congr (s.setConsumer_station e c)

/-- R100: what makes the expiry of a consumer with a given retry count due. -/
theorem State.expiryDue_iff (s : State) (e : Fin 12) (retry : Nat) :
    s.expiryDue e retry = true ↔ s.blocksRun = true ∧ (s.consumer e).state = .changing ∧ (s.consumer e).timer = 0 ∧
      (s.consumer e).retry = retry := by
  simp only [expiryDue, Bool.and_eq_true, beq_iff_eq, and_assoc]

/-- FIRST_EXPIRY does its work where the expiry is due. -/
theorem exec_firstExpiry_of_due (s : State) (e : Fin 12) (h : s.expiryDue e 0 = true) :
    exec (.firstExpiry e) s = .next (s.firstExpiry e) := by
  change execFirstExpiry e s = _
  rw [execFirstExpiry, if_pos h]

/-- The consumer once its first expiry has posted the grant again (R101). -/
def Consumer.retrying (c : Consumer) (time : Nat) : Consumer := { c with retry := 1, timer := time }

/-- R101: the retry count and the timer do not weigh in what a consumer holds. -/
@[simp] theorem Consumer.retrying_holds (c : Consumer) (time : Nat) : (c.retrying time).holds = c.holds := rfl

theorem State.firstExpiry_eq_postGrant (s : State) (e : Fin 12) :
    s.firstExpiry e = (s.setConsumer e ((s.consumer e).retrying s.img.confirmationTime)).postGrant e
      ((s.consumer e).pending.getD 0) (s.consumer e).id true := rfl

/-- The first expiry of a consumer whose pending grant is `g` posts that grant again under the same id, marked RETRY. -/
theorem State.firstExpiry_of_pending (s : State) (e : Fin 12) (g : Nat) (h : (s.consumer e).pending = some g) :
    s.firstExpiry e = (s.setConsumer e ((s.consumer e).retrying s.img.confirmationTime)).post
      (s.img.operator e).toList .grant e.val (BitVec.ofNat 32 g) 1 (s.consumer e).id := by
  rw [firstExpiry_eq_postGrant, postGrant, setConsumer_img, h, Option.getD_some, if_pos rfl]

/-- Settles O32: the expiry is due, so the command replaces the consumer by its retrying form, which keeps the
state, the pending grant and the amount held, and posts; a notice reaches no consumer. -/
theorem firstExpiryPostsAgain : Obligations.FirstExpiryPostsAgain := by
  intro e g s hrun c hstate htimer hretry hpending
  have hdue : s.expiryDue e 0 = true := (s.expiryDue_iff e 0).mpr ⟨hrun, hstate, htimer, hretry⟩
  have hposted := s.firstExpiry_of_pending e g hpending
  refine ⟨s.firstExpiry e, exec_firstExpiry_of_due s e hdue, hposted, ?_, ?_, ?_⟩
  · rw [hposted, State.post_consumer, State.setConsumer_consumer]
    exact hstate
  · rw [hposted, State.post_consumer, State.setConsumer_consumer]
    exact hpending
  · rw [hposted, State.post_heldSum]
    exact s.setConsumer_heldSum_of_holds_eq e _ (c.retrying_holds s.img.confirmationTime)

end Sys2Proof.Machine
end

section

/-! # Proofs: party ports and notices -/

namespace Sys2Proof.Machine

theorem be_one (v : Nat) : be 1 v = [BitVec.ofNat 8 v] := by
  rw [be, be, pow_zero, Nat.div_one]

/-- R189: the bytes of a response frame, with the check over all that stands before it. -/
theorem responseFrame_eq (status : Nat) (data : List Byte) :
    responseFrame status data =
      BitVec.ofNat 8 status :: BitVec.ofNat 8 data.length :: data ++
        [crc8 (BitVec.ofNat 8 status :: BitVec.ofNat 8 data.length :: data)] := by
  rw [responseFrame, be_one, be_one]
  rfl

/-- R190: FETCH is 00h 00h 00h, so its length and check bytes are as they must be. -/
theorem fetch_length_and_check : ¬((0#8 : Byte) ≠ 0 ∨ (0#8 : Byte) ≠ crc8 [0, 0#8]) := by decide

theorem fetchFrame_of_idle (pt : Port) (h : pt.slot = .idle) : fetchFrame pt 0#8 0#8 = responseFrame 10 [] := by
  rw [fetchFrame, if_neg fetch_length_and_check, h]

theorem fetchFrame_of_working (pt : Port) (h : pt.slot = .working) : fetchFrame pt 0#8 0#8 = responseFrame 11 [] := by
  rw [fetchFrame, if_neg fetch_length_and_check, h]

theorem fetchFrame_of_ready (pt : Port) (r : Response) (h : pt.slot = .ready r) :
    fetchFrame pt 0#8 0#8 = responseFrame ((if r.dropped then 128 else 0) + r.result.code) r.data := by
  rw [fetchFrame, if_neg fetch_length_and_check, h]

/-- R192: a FETCH at a port that responds changes the data out line of that port alone. The change is made at the
port as it stands, so the frame is the one of `s.port p`. -/
theorem exec_fetch_of_portsRespond (p : Party) (len chk : Byte) (n : Nat) (s : State) (h : s.portsRespond = true) :
    exec (.fetch p len chk n) s = .next (s.mapPort p fun pt =>
      { pt with dataOut := (fetchFrame (s.port p) len chk ++ List.replicate n 0xFF#8).take n }) := by
  change execFetch p len chk n s = _
  rw [execFetch, if_pos h]
  rfl

/-- Settles O3: the FETCH clocks out the frame of its port, which is the response frame of what the slot holds,
by the three states of the slot. -/
theorem fetchShowsTheSlot : Obligations.FetchShowsTheSlot := by
  intro p n s hrespond
  rw [exec_fetch_of_portsRespond p 0#8 0#8 n s hrespond]
  cases hslot : (s.port p).slot with
  | idle => rw [fetchFrame_of_idle _ hslot, responseFrame_eq]; rfl
  | working => rw [fetchFrame_of_working _ hslot, responseFrame_eq]; rfl
  | ready r => rw [fetchFrame_of_ready _ r hslot, responseFrame_eq]

end Sys2Proof.Machine
end

section

-- One thread per proof would pass the memory limit of the build: each has a stack of its own.
set_option Elab.async false

/-! # Proofs: what every step keeps

`Keeps s t` says that `t` is as well formed as `s` in each of the seven respects that the statements name. It is
reflexive and transitive, so a command keeps them because each operation that it is made of does. -/

namespace Sys2Proof.Machine

/-! ### The array and the checkpoints that it holds -/

/-- `st'` holds no checkpoint that `st` does not hold, and its array is in canonical form where that of `st` is. -/
structure Store.Within (st st' : Store) : Prop where
  cells : Cells.wf st.cells = true → Cells.wf st'.cells = true := by exact fun h => h
  holds : ∀ c, st'.Holds c → st.Holds c := by exact fun _ h => h

theorem Store.Within.refl (st : Store) : st.Within st := {}

theorem Store.Within.trans {a b c : Store} (h : a.Within b) (k : b.Within c) : a.Within c where
  cells := fun hc => k.cells (h.cells hc)
  holds := fun x hx => h.holds x (k.holds x hx)

theorem Store.Within.foldl {α : Type} (f : Store → α → Store) (h : ∀ (st : Store) (a : α), st.Within (f st a)) (l : List α)
    (st : Store) : st.Within (l.foldl f st) :=
  List.foldlRecOn l f (Store.Within.refl st) fun t ht a _ => ht.trans (h t a)

/-- A checkpoint held after an operation has joined the queue was held before, or is that operation. -/
theorem Store.enqueue_holds {st : Store} {op : ArrayOp} {c : Checkpoint} (h : (st.enqueue op).Holds c) :
    st.Holds c ∨ op = .checkpoint c := by
  have hq : ∀ x : ArrayOp, x ∈ st.queue ++ [op] → x = .checkpoint c → st.Holds c ∨ op = .checkpoint c := by
    rintro x hx rfl
    rcases List.mem_append.mp hx with hx | hx
    · exact .inl (.inr (.inl hx))
    · exact .inr (List.mem_singleton.mp hx).symm
  rcases st.enqueue_cases op with e | ⟨n, -, e⟩ <;> rw [e] at h <;> rcases h with h | h | ⟨n', h⟩
  · exact .inl (.inl h)
  · exact hq _ h rfl
  · exact .inl (.inr (.inr ⟨n', h⟩))
  · exact .inl (.inl h)
  · exact hq _ h rfl
  · cases h

theorem Store.enqueue_within (st : Store) (op : ArrayOp) (h : ∀ c, op ≠ .checkpoint c) : st.Within (st.enqueue op) where
  cells := fun hc => by rwa [Store.enqueue_cells]
  holds := fun c hc => (Store.enqueue_holds hc).resolve_right (h c)

/-- Listing a sector for erase leaves what every checkpoint sector holds (R154). -/
theorem Store.listErase_content (st : Store) (n : Nat) (i : Fin 8) :
    ((st.listErase n).ckpts.get i).content = (st.ckpts.get i).content := by
  have hmod : ∀ t : Table CkptSector 8,
      ((t.modify (ckptIndex n) fun c => { c with state := .erasing }).get i).content = (t.get i).content := by
    intro t
    by_cases hi : ckptIndex n = i
    · subst hi; rw [Table.get_modify_same]
    · rw [Table.get_modify_ne _ _ hi]
  have hlist : ∀ l : List Nat, ((if st.eraseList.contains n then st else { st with eraseList := l }) : Store).ckpts =
      st.ckpts := fun l => by split <;> rfl
  rw [Store.listErase]
  dsimp only
  split
  · rw [hlist]
  · split
    · rw [hlist]; exact hmod _
    · exact congrArg (fun t => (Table.get t i).content) (hlist _)

theorem Store.listErase_within (st : Store) (n : Nat) : st.Within (st.listErase n) where
  cells := fun hc => by rwa [Store.listErase_cells]
  holds := fun c hc => by
    obtain ⟨l, k, x, i, e⟩ := st.listErase_frame n
    have hcontent := st.listErase_content n
    rw [e] at hc hcontent
    rcases hc with ⟨i, w, hi⟩ | hq | hcur
    · exact .inl ⟨i, w, (hcontent i).symm.trans hi⟩
    · exact .inr (.inl hq)
    · exact .inr (.inr hcur)

theorem joinAlong_within (l : List Nat) (o : Bool) (r : Nat) (st : Store) : st.Within (joinAlong l o r st) := by
  induction l generalizing o r st with
  | nil => exact .refl st
  | cons n rest ih =>
    unfold joinAlong
    dsimp only
    split
    · exact (st.listErase_within n).trans (ih ..)
    · split
      · exact ih ..
      · exact ih ..

theorem Store.testErases_within (st : Store) : st.Within st.testErases := joinAlong_within ..

theorem Store.enter_within (st : Store) (sector unit : Nat) : st.Within (st.enter sector unit) := by
  unfold Store.enter
  split
  · exact .refl st
  · dsimp only
    split
    · exact Store.Within.trans {} (Store.testErases_within _)
    · exact Store.Within.trans {} (Store.testErases_within _)

theorem Store.listTwoAfter_within (st : Store) (j : Nat) : st.Within (st.listTwoAfter j) := by
  refine Store.Within.foldl _ (fun t n => ?_) _ st
  split
  · exact .refl t
  · exact t.listErase_within n

theorem Store.listHeld_within (st : Store) : st.Within st.listHeld := by
  refine Store.Within.foldl _ (fun t n => ?_) _ st
  split
  · exact t.listErase_within n
  · exact .refl t

/-- A record program that waits at the head of the queue brings no checkpoint. -/
theorem Store.Within.queueRecord (st : Store) (r : PeriodRecord) :
    st.Within { st with queue := .record r :: st.queue } where
  holds := fun c hc => by
    rcases hc with hc | hc | hc
    · exact .inl hc
    · exact .inr (.inl ((List.mem_cons.mp hc).resolve_left (by simp)))
    · exact .inr (.inr hc)

/-- The queue may lose operations. -/
theorem Store.Within.shorten (st : Store) (q : List ArrayOp) (h : ∀ x ∈ q, x ∈ st.queue) :
    st.Within { st with queue := q } where
  holds := fun c hc => by
    rcases hc with hc | hc | hc
    · exact .inl hc
    · exact .inr (.inl (h _ hc))
    · exact .inr (.inr hc)

/-- What is being served may be replaced by anything but a checkpoint program, and the array reprogrammed. -/
theorem Store.Within.serving (st : Store) (x : Option Activity) (cells : List Host.Cell)
    (hx : ∀ c n, x ≠ some (.checkpoint c n)) (h : Cells.wf st.cells = true → Cells.wf cells = true) :
    st.Within { st with cells := cells, current := x } where
  cells := h
  holds := fun c hc => by
    rcases hc with hc | hc | ⟨n, hc⟩
    · exact .inl hc
    · exact .inr (.inl hc)
    · exact absurd hc (hx c n)

/-- Serving ends. -/
theorem Store.Within.idle (st : Store) : st.Within { st with current := none } :=
  .serving st none st.cells (fun _ _ => nofun) id

/-- A checkpoint sector that comes to hold no good checkpoint, or one that the store held. -/
theorem Store.Within.setCkpt (st : Store) (i : Fin 8) (x : CkptSector)
    (hx : ∀ c w, x.content = .good c w → st.Holds c) : st.Within { st with ckpts := st.ckpts.set i x } where
  holds := fun c hc => by
    rcases hc with ⟨j, w, hc⟩ | hc | hc
    · rw [Table.get_set] at hc
      split at hc
      · exact hx c w hc
      · exact .inl ⟨j, w, hc⟩
    · exact .inr (.inl hc)
    · exact .inr (.inr hc)

/-! The array's work brings no checkpoint but the one that it programs. -/

theorem Store.stopRecord_within (st : Store) (n : Nat) : st.Within (st.stopRecord n) := by
  unfold Store.stopRecord
  split
  case h_1 r sector unit _ =>
    exact (Store.Within.serving st none _ (fun _ _ => nofun) fun h => programBytes_wf h _ _).trans
      (Store.Within.queueRecord _ r)
  case h_2 => exact .refl st

theorem ArrayOp.overtaken_checkpoint {x : ArrayOp} {c : Checkpoint} (h : x.overtaken = .checkpoint c) :
    x = .checkpoint c := by
  cases x <;> simp_all [ArrayOp.overtaken]

theorem Store.startAt_within (st : Store) (n : Nat) : st.Within (st.startAt n) := by
  unfold Store.startAt
  dsimp only
  split <;> exact {}

theorem Store.beginClear_within (st : Store) (n : Nat) : st.Within (st.beginClear n) := by
  have hover : ∀ t : Store, t.Within { t with index := [], queue := t.queue.map ArrayOp.overtaken } := fun t =>
    { holds := fun c hc => by
        rcases hc with hc | hc | hc
        · exact .inl hc
        · obtain ⟨x, hx, e⟩ := List.mem_map.mp hc
          exact .inr (.inl (ArrayOp.overtaken_checkpoint e ▸ hx))
        · exact .inr (.inr hc) }
  have hlist := ((st.stopRecord_within n).trans (hover _)).trans
    (Store.Within.foldl Store.listErase Store.listErase_within st.written _)
  unfold Store.beginClear
  dsimp only
  split
  · exact (hlist.trans (Store.startAt_within ..)).trans {}
  · exact hlist.trans {}

theorem Store.voidAttempt_within (st : Store) (sector unit : Nat) (cells : List Host.Cell)
    (h : Cells.wf st.cells = true → Cells.wf cells = true) : st.Within (st.voidAttempt sector unit cells) :=
  (Store.Within.serving st none cells (fun _ _ => nofun) h).trans {}

theorem Store.retire_within (st : Store) (sector : Nat) : st.Within (st.retire sector) :=
  Store.Within.trans {} (Store.testErases_within _)

theorem Store.remake_within (st : Store) (r : PeriodRecord) : st.Within (st.remake r) := by
  unfold Store.remake
  split
  case h_1 sector unit _ =>
    exact (st.enter_within sector unit).trans
      ((Store.Within.serving _ (some (.record r sector unit)) _ (fun _ _ => nofun) id).trans {})
  case h_2 => exact .queueRecord st r

theorem Store.release_within (st : Store) (sector : Nat) : st.Within (st.release sector) := by
  unfold Store.release
  split
  · exact Store.Within.trans {} (Store.testErases_within _)
  · exact .refl st

theorem Store.moveOffRetired_within (st : Store) (n : Nat) : st.Within (st.moveOffRetired n) := by
  unfold Store.moveOffRetired
  split
  · split
    · exact st.startAt_within _
    · exact .refl st
  · exact .refl st

theorem Store.ckptDone_within (st : Store) (c : Checkpoint) (target : Nat)
    (h : st.current = some (.checkpoint c target)) : st.Within (st.ckptDone c target) := by
  have hset := Store.Within.setCkpt st (ckptIndex target) ⟨.held, .good c st.pfw⟩ fun k w hk => by
    cases hk; exact .inr (.inr ⟨target, h⟩)
  exact ((hset.trans (Store.Within.idle _)).trans {}).trans (Store.listTwoAfter_within ..)

theorem Store.ckptFails_within (st : Store) (target : Nat) (q : Option Nat) : st.Within (st.ckptFails target q) :=
  (Store.Within.setCkpt st _ ⟨.held, .bad q⟩ (fun _ _ => nofun)).trans (Store.Within.idle _)

theorem CkptContent.torn_good {x : CkptContent} {l : CkptLeft} {c : Checkpoint} {w : Bool} (h : x.torn l = .good c w) :
    x = .good c w := by
  cases l with
  | untouched => exact h
  | erased => cases h
  | bad q => cases h

theorem Store.tearCkpt_within (st : Store) (n : Nat) (l : CkptLeft) : st.Within (st.tearCkpt n l) :=
  Store.Within.setCkpt st _ _ fun _ w h => .inl ⟨ckptIndex n, w, CkptContent.torn_good h⟩

theorem Store.tearErase_within (st : Store) (n : Nat) (torn : Torn) : st.Within (st.tearErase n torn) := by
  unfold Store.tearErase
  split
  · exact st.tearCkpt_within n _
  · exact { cells := fun h => leaveSector_wf h _ _ }

theorem Store.tearCurrent_within (st : Store) (torn : Torn) : st.Within (st.tearCurrent torn) := by
  have hidle := Store.Within.idle st
  unfold Store.tearCurrent
  dsimp only
  split
  · exact hidle.trans { cells := fun h => tearProgram_wf h _ _ _ _ }
  · split
    · exact hidle
    · exact hidle.trans { cells := fun h => tearUnit_wf h _ _ _ }
  · exact hidle.trans (Store.tearCkpt_within ..)
  · exact hidle.trans { cells := fun h => tornConfig_wf h _ _ _ _ }
  · exact hidle.trans (Store.tearErase_within ..)
  · exact hidle
  · exact hidle

/-- A suspended erase that is cut short. -/
theorem Store.tearSuspended_within (st : Store) (torn : Torn) :
    st.Within (match st.suspended with | some n => st.tearErase n torn | none => st) := by
  split
  · exact st.tearErase_within _ torn
  · exact .refl st

theorem Store.tear_within (st : Store) (torn : Torn) : st.Within (st.tear torn) :=
  ((st.tearSuspended_within torn).trans (Store.tearCurrent_within _ torn)).trans {}

theorem Store.warn_within (st : Store) (torn : Torn) : st.Within (st.warn torn) := by
  have hclear : ∀ t : Store, t.Within { t with
      pfw := true, abandoned := st.erasing, suspended := none, eraseMs := 0, queue := [], eraseList := []
      gatherDue := none } := fun t => (Store.Within.shorten t [] fun _ h => absurd h List.not_mem_nil).trans {}
  refine Store.Within.trans ?_ (hclear _)
  have hsus := st.tearSuspended_within torn
  split
  · split
    · exact hsus
    · exact hsus.trans (Store.tearCurrent_within ..)
  · exact hsus

/-- Start-up finds the checkpoints that stand in the array, and no others (R171). -/
theorem Store.rebuilt_within (st : Store) (found : Option FoundCheckpoint) (image : Option (Nat × Programmed)) :
    st.Within (st.rebuilt found image) := by
  unfold Store.rebuilt
  extract_lets kept retired retiring walks index write erased base placed listed caught abandoned
  have hplaced : st.Within placed := by
    refine ⟨fun h => h, fun c hc => ?_⟩
    rcases hc with ⟨i, w, hc⟩ | hc | ⟨n, hc⟩
    · have hsame : (placed.ckpts.get i).content = (st.ckpts.get i).content := by
        simp only [placed, base, foundCkpts, Table.get_mapFin]
      exact .inl ⟨i, w, hsame.symm.trans hc⟩
    · cases hc
    · cases hc
  have hlisted : st.Within listed := hplaced.trans (placed.listTwoAfter_within _)
  have hcaught : st.Within caught := hlisted.trans (Store.Within.foldl _ Store.listErase_within _ listed)
  have habandoned : st.Within abandoned := by
    simp only [abandoned]
    split
    · split
      · exact hcaught
      · exact hcaught.trans (Store.listErase_within ..)
    · exact hcaught
  exact habandoned.trans (Store.testErases_within _)

theorem newer_eq (a b : Option FoundCheckpoint) : newer a b = a ∨ newer a b = b := by
  unfold newer
  split
  · split
    · exact .inr rfl
    · exact .inl rfl
  · exact .inr rfl
  · exact .inl rfl

/-- The checkpoint that start-up finds stands in the array (R171). -/
theorem foundCheckpoint_holds {st : Store} {f : FoundCheckpoint} (h : foundCheckpoint st = some f) :
    st.Holds f.checkpoint := by
  have hgood : ∀ n f, goodIn st n = some f → st.Holds f.checkpoint := by
    intro n f hf
    unfold goodIn at hf
    split at hf
    case h_1 c w hc => cases hf; exact .inl ⟨_, w, hc⟩
    case h_2 => cases hf
  refine List.foldlRecOn ckptSectors (fun best n => newer best (goodIn st n))
    (motive := fun best => ∀ f, best = some f → st.Holds f.checkpoint) (fun _ h => by cases h) ?_ f h
  intro best hb n _ f hf
  rcases newer_eq best (goodIn st n) with e | e <;> rw [e] at hf
  · exact hb f hf
  · exact hgood n f hf

end Sys2Proof.Machine
end

section

-- One thread per proof would pass the memory limit of the build: each has a stack of its own.
set_option Elab.async false

namespace Sys2Proof.Machine

/-! ### Ports -/

/-- R196: an offered notice joins a queue of at most 30, replaces itself by QUEUE FULL at 31, and raises the count of the
QUEUE FULL at the tail at 32. -/
theorem Port.Wf.offer {pt : Port} (h : pt.Wf) (n : Notice) : (pt.offer n).Wf := by
  obtain ⟨hlen, hdrop, htail⟩ := h
  unfold Port.offer
  split
  case isTrue hd =>
    obtain ⟨m, hm, hk⟩ := htail hd
    refine ⟨?_, ?_, fun _ => ⟨bumpValue m, ?_, ?_⟩⟩
    · rw [bumpTail_length]; exact hlen
    · rw [bumpTail_length]; exact hdrop
    · rw [bumpTail_getLast?, hm]; rfl
    · rw [bumpValue_kind, hk]
  case isFalse hd =>
    have hne : pt.queue.length ≠ 32 := fun e => hd (hdrop.mpr e)
    split
    · split
      · refine ⟨?_, ?_, fun h => absurd h hd⟩ <;> simp only [hd, List.length_append, List.length_cons, List.length_nil] <;>
          simp <;> omega
      · refine ⟨?_, ?_, fun h => absurd h hd⟩ <;> simp only [hd, List.length_append, List.length_cons, List.length_nil] <;>
          simp <;> omega
    · refine ⟨?_, ?_, fun _ => ⟨n.full, ?_, rfl⟩⟩
      · simp only [List.length_append, List.length_cons, List.length_nil]; omega
      · simp only [List.length_append, List.length_cons, List.length_nil, true_iff]; omega
      · simp

theorem Port.Wf.arrive {pt : Port} (h : pt.Wf) (n : Notice) : (pt.arrive n).Wf := by
  unfold Port.arrive
  split
  · exact h.offer n
  · exact h

/-- R197: a queue from which a notice was taken is not full. -/
theorem Port.Wf.afterTake {pt : Port} (h : pt.Wf) : pt.afterTake.Wf := by
  obtain ⟨hlen, hdrop, htail⟩ := h
  unfold Port.afterTake
  split
  case h_1 => exact ⟨hlen, hdrop, htail⟩
  case h_2 n rest hq =>
    have hrest : rest.length + 1 ≤ 32 := by rw [hq] at hlen; exact hlen
    exact ⟨by dsimp only; omega, ⟨nofun, fun e => by dsimp only at e; omega⟩, nofun⟩

theorem Port.wf_atStart (filter : BitVec 32) : (Port.atStart filter).Wf :=
  ⟨Nat.zero_le _, ⟨nofun, nofun⟩, nofun⟩

theorem partyIndex_surjective (i : Fin 3) : ∃ p, partyIndex p = i :=
  match i with
  | 0 => ⟨.works, rfl⟩
  | 1 => ⟨.plant, rfl⟩
  | 2 => ⟨.town, rfl⟩

/-! ### Consumers -/

/-- R97: a consumer that settles has nothing pending and no timer, and its state suits its confirmed grant. -/
theorem Consumer.wf_settle (c : Consumer) : c.settle.Wf := by
  by_cases h : c.confirmed = 0 <;> simp [Consumer.Wf, Consumer.settle, h]

theorem Consumer.settled_settle (c : Consumer) : c.settle.Settled := by
  by_cases h : c.confirmed = 0 <;> simp [Consumer.Settled, Consumer.settle, h]

theorem Consumer.wf_absent : Consumer.absent.Wf := by simp [Consumer.Wf, Consumer.absent]

theorem Consumer.settled_absent : Consumer.absent.Settled := by simp [Consumer.Settled, Consumer.absent]

/-- Limits, cap and PARKED do not weigh in either form. -/
theorem Consumer.Wf.congr {c d : Consumer} (h : c.Wf) (hs : d.state = c.state) (hp : d.pending = c.pending)
    (hr : d.retry = c.retry) (ht : d.timer = c.timer) : d.Wf := by
  unfold Consumer.Wf; rw [hs, hp, hr, ht]; exact h

theorem Consumer.Settled.congr {c d : Consumer} (h : c.Settled) (hs : d.state = c.state)
    (hc : d.confirmed = c.confirmed) : d.Settled := by
  unfold Consumer.Settled; rw [hs, hc]; exact h

theorem Consumer.Wf.limitTo {c : Consumer} (h : c.Wf) (l : Limits) : (c.limitTo l).Wf := h.congr rfl rfl rfl rfl

theorem Consumer.Settled.limitTo {c : Consumer} (h : c.Settled) (l : Limits) : (c.limitTo l).Settled := h.congr rfl rfl

/-- R99: a posted grant waits, with its timer, in CHANGING. -/
theorem Consumer.wf_posting (c : Consumer) (grant time : Nat) : (c.posting grant time).Wf := by
  simp [Consumer.Wf, Consumer.posting]

theorem Consumer.settled_of_changing {c : Consumer} (h : c.state = .changing) : c.Settled := by
  simp [Consumer.Settled, h]

theorem Consumer.settled_of_unresponsive {c : Consumer} (h : c.state = .unresponsive) : c.Settled := by
  simp [Consumer.Settled, h]

theorem Consumer.wf_tripped (c : Consumer) : c.tripped.Wf := by simp [Consumer.Wf, Consumer.tripped]

theorem Consumer.settled_tripped (c : Consumer) : c.tripped.Settled := by simp [Consumer.Settled, Consumer.tripped]

theorem Consumer.Wf.atBoundary {c : Consumer} (h : c.Wf) : c.atBoundary.Wf := by
  unfold Consumer.atBoundary
  split
  case isTrue hs => exact ⟨h.1, h.2.1, fun hne => absurd hs hne⟩
  case isFalse => exact h

theorem Consumer.Settled.atBoundary {c : Consumer} (h : c.Settled) : c.atBoundary.Settled := by
  unfold Consumer.atBoundary; split <;> exact h

theorem Consumer.atBoundary_state (c : Consumer) : c.atBoundary.state = c.state := by
  unfold Consumer.atBoundary; split <;> rfl

theorem Consumer.wf_first (img : Image) (e : Fin 12) : (firstConsumer img e).Wf := by
  unfold firstConsumer
  split
  · simp [Consumer.Wf, Consumer.absent]
  · exact Consumer.wf_absent

theorem Consumer.settled_first (img : Image) (e : Fin 12) : (firstConsumer img e).Settled := by
  unfold firstConsumer
  split
  · simp [Consumer.Settled, Consumer.absent]
  · exact Consumer.settled_absent

theorem firstConsumer_of_absent {img : Image} {e : Fin 12} (h : img.operator e = none) :
    firstConsumer img e = Consumer.absent := by
  rw [firstConsumer, h]; rfl

/-- R18: the consumers at a commit. -/
theorem Consumer.Wf.committed {c : Consumer} (h : c.Wf) (old new : Image) (e : Fin 12) :
    (committedConsumer old new e c).Wf := by
  unfold committedConsumer
  split
  · exact Consumer.wf_absent
  · exact Consumer.wf_first ..
  · split
    · exact h.limitTo _
    · exact Consumer.wf_settle _

theorem Consumer.Settled.committed {c : Consumer} (h : c.Settled) (old new : Image) (e : Fin 12) :
    (committedConsumer old new e c).Settled := by
  unfold committedConsumer
  split
  · exact Consumer.settled_absent
  · exact Consumer.settled_first ..
  · split
    · exact h.limitTo _
    · exact Consumer.settled_settle _

theorem committedConsumer_of_absent {new : Image} {e : Fin 12} (h : new.operator e = none) (old : Image) (c : Consumer) :
    committedConsumer old new e c = Consumer.absent := by
  rw [committedConsumer, h]

/-- R115: the consumers after a restart. -/
theorem Consumer.wf_restored (img : Image) (e : Fin 12) (c : Consumer) : (restoredConsumer img e c).Wf := by
  unfold restoredConsumer
  split
  · exact Consumer.wf_absent
  · split
    · exact Consumer.wf_first ..
    · unfold Consumer.restored
      split
      case isTrue => exact Consumer.wf_settle _
      case isFalse hs => simp [Consumer.Wf, Consumer.kept, hs]

theorem Consumer.Settled.restored {c : Consumer} (h : c.Settled) (img : Image) (e : Fin 12) :
    (restoredConsumer img e c).Settled := by
  unfold restoredConsumer
  split
  · exact Consumer.settled_absent
  · split
    · exact Consumer.settled_first ..
    · unfold Consumer.restored
      split
      · exact Consumer.settled_settle _
      · exact h

theorem restoredConsumer_of_absent {img : Image} {e : Fin 12} (h : img.operator e = none) (c : Consumer) :
    restoredConsumer img e c = Consumer.absent := by
  rw [restoredConsumer, h]; rfl

/-! ### The relation -/

/-- `t` is as well formed as `s`. -/
structure Keeps (s t : State) : Prop where
  ports : PortsWf s → PortsWf t := by exact fun h => h
  consumers : ConsumersWf s → ConsumersWf t := by exact fun h => h
  grants : GrantsWf s → GrantsWf t := by exact fun h => h
  figures : FiguresWf s → FiguresWf t := by exact fun h => h
  sensor : SensorWf s → SensorWf t := by exact fun h => h
  nominations : NominationsWf s → NominationsWf t := by exact fun h => h
  array : ArrayWf s → ArrayWf t := by exact fun h => h

namespace Keeps

variable {s t u : State}

theorem refl (s : State) : Keeps s s := {}

theorem trans (h : Keeps s t) (k : Keeps t u) : Keeps s u where
  ports := k.ports ∘ h.ports
  consumers := k.consumers ∘ h.consumers
  grants := k.grants ∘ h.grants
  figures := k.figures ∘ h.figures
  sensor := k.sensor ∘ h.sensor
  nominations := k.nominations ∘ h.nominations
  array := k.array ∘ h.array

theorem of_eq (h : t = s) : Keeps s t := h ▸ refl s

theorem foldl {α : Type} (f : State → α → State) (h : ∀ (t : State) (a : α), Keeps t (f t a)) (l : List α) (s : State) :
    Keeps s (l.foldl f s) :=
  List.foldlRecOn l f (refl s) fun t ht a _ => ht.trans (h t a)

/-! One rule for each component that the seven respects speak of. -/

theorem setPorts (s : State) (p : Table Port 3) (h : ∀ i, (s.ports.get i).Wf → (p.get i).Wf) :
    Keeps s { s with ports := p } where
  ports := fun hs q => h _ (hs q)

theorem mapPort (s : State) (p : Party) (f : Port → Port) (h : ∀ pt, pt.Wf → (f pt).Wf) : Keeps s (s.mapPort p f) :=
  setPorts s _ fun i hi => by
    by_cases hp : partyIndex p = i
    · subst hp; rw [Table.get_modify_same]; exact h _ hi
    · rw [Table.get_modify_ne _ _ hp]; exact hi

theorem setStore (s : State) (st : Store) (h : s.store.Within st) : Keeps s { s with store := st } where
  grants := fun ⟨ho, hc, hk⟩ => ⟨ho, hc, fun c x => hk c (h.holds c x)⟩
  figures := fun ⟨hf, hk⟩ => ⟨hf, fun c x => hk c (h.holds c x)⟩
  nominations := fun ⟨hn, hk⟩ => ⟨hn, fun c x => hk c (h.holds c x)⟩
  array := h.cells

theorem mapStore (s : State) (f : Store → Store) (h : s.store.Within (f s.store)) : Keeps s (s.mapStore f) :=
  setStore s _ h

/-- A consumer is replaced by one of good form that is OUT where it is absent. -/
theorem setConsumers (s : State) (x : Table Consumer 12) (hw : ∀ e, (s.consumer e).Wf → (x.get e).Wf)
    (hs : ∀ e, (s.consumer e).Settled → (x.get e).Settled)
    (ho : ∀ e, s.img.operator e = none → (s.consumer e).state = .out → (x.get e).state = .out) :
    Keeps s { s with alloc := { s.alloc with consumers := x } } where
  consumers := fun h e => hw e (h e)
  grants := fun ⟨hout, hset, hk⟩ => ⟨fun e he => ho e he (hout e he), fun e => hs e (hset e), hk⟩

theorem setConsumer (s : State) (e : Fin 12) (c : Consumer) (hw : (s.consumer e).Wf → c.Wf)
    (hs : (s.consumer e).Settled → c.Settled)
    (ho : s.img.operator e = none → (s.consumer e).state = .out → c.state = .out) : Keeps s (s.setConsumer e c) := by
  refine setConsumers s _ ?_ ?_ ?_ <;> intro f <;> rw [Table.get_set] <;> split
  case refine_1.isTrue h => subst h; exact hw
  case refine_1.isFalse => exact id
  case refine_2.isTrue h => subst h; exact hs
  case refine_2.isFalse => exact id
  case refine_3.isTrue h => subst h; exact ho
  case refine_3.isFalse => exact fun _ => id

theorem setStreams (s : State) (x : Fiscal)
    (h : ∀ i, (s.fiscal.streams.get i).total < 1000000000 ∧ (s.fiscal.streams.get i).residual < 1000000000 →
      (x.streams.get i).total < 1000000000 ∧ (x.streams.get i).residual < 1000000000) :
    Keeps s { s with fiscal := x } where
  figures := fun ⟨hf, hk⟩ => ⟨fun i => h i (hf i), hk⟩

theorem setSensor (s : State) (x : Sensor) (h : SensorWf s → SensorWf { s with sensor := x }) :
    Keeps s { s with sensor := x } where
  sensor := h

/-- The queue keeps its place behind the running interval. -/
theorem setTracker (s : State) (x : Tracker) (h : s.tracker.Wf → x.Wf) : Keeps s { s with tracker := x } where
  nominations := fun ⟨hn, hk⟩ => ⟨h hn, hk⟩

/-! ### Notices and responses -/

theorem deliver (s : State) (rs : List Party) (n : Notice) : Keeps s (s.deliver rs n) := by
  refine setPorts s _ fun i => ?_
  refine List.foldlRecOn rs _ (motive := fun t : Table Port 3 => (s.ports.get i).Wf → (t.get i).Wf) id ?_
  intro t ht p _ hi
  by_cases hp : partyIndex p = i
  · subst hp; rw [Table.get_modify_same]; exact (ht hi).arrive n
  · rw [Table.get_modify_ne _ _ hp]; exact ht hi

theorem post (s : State) (rs : List Party) (k : NoticeKind) (i : Nat) (v : BitVec 32) (m b : Nat) :
    Keeps s (s.post rs k i v m b) := by
  rcases s.post_cases rs k i v m b with ⟨-, h⟩ | ⟨-, h⟩ <;> rw [h]
  · exact deliver ..
  · exact refl s

theorem respond (s : State) (p : Party) (r : Result) (data : List Byte) : Keeps s (s.respond p r data) :=
  mapPort s p _ fun _ h => h

theorem postDefect (s : State) (a b : Nat) : Keeps s (s.postDefect a b) := post ..

theorem askFlag (s : State) (f : Fin 8) (v : Bool) : Keeps s (s.askFlag f v) := by
  unfold State.askFlag
  split
  · exact refl s
  · exact trans (t := s.mapAlloc fun a => { a with flags := a.flags.set f ⟨v, some s.clock.time⟩ }) {} (post ..)

/-! ### Requests -/

theorem finish (p : Party) (x : State × Reply) : Keeps x.1 (State.finish p x) := by
  obtain ⟨t, r⟩ := x
  cases r with
  | done r data => exact respond ..
  | waiting => exact refl t

theorem takeFrame (s : State) (p : Party) (judge : State → State × Reply) (h : ∀ t, Keeps t (judge t).1) :
    Keeps s (s.takeFrame p judge) := by
  unfold State.takeFrame
  split
  · split
    · exact mapPort s p _ fun _ h => h
    · exact (mapPort s p Port.take fun _ h => h).trans ((h _).trans (finish p _))
  · exact refl s

/-- A request keeps what its rule keeps (R190, R191). -/
theorem request (s : State) (p : Party) (r : Request) (rule : State → State × Reply)
    (h : ∀ t, t.stateRefuses r = false → Keeps t (rule t).1) : Keeps s (s.request p r rule) := by
  refine takeFrame s p _ fun t => ?_
  split
  case isTrue => exact refl t
  case isFalse hr => exact h t (by simpa using hr)

/-- A request for a consumer entry reaches its rule for a present entry alone (R103). -/
theorem judgeEntry (s : State) (p : Party) (entry : Nat) (rule : Fin 12 → State × Reply)
    (h : ∀ e, s.img.operator e ≠ none → Keeps s (rule e).1) : Keeps s (judgeEntry s p entry rule).1 := by
  unfold Machine.judgeEntry
  split
  case h_1 => exact refl s
  case h_2 e _ =>
    split
    case h_1 => exact refl s
    case h_2 owner ho =>
      split
      · exact h e (by rw [ho]; nofun)
      · exact refl s

theorem judgePriced (s : State) (p : Party) (c : Nat) (who : Fin 4 → Party) (rule : Fin 4 → State × Reply)
    (h : ∀ c, Keeps s (rule c).1) : Keeps s (judgePriced s p c who rule).1 := by
  unfold Machine.judgePriced
  split
  · exact refl s
  · split
    · exact refl s
    · split
      · exact refl s
      · exact h _

theorem judgeStored (s : State) (a b : Nat) (rule : State × Reply) (h : Keeps s rule.1) :
    Keeps s (judgeStored s a b rule).1 := by
  unfold Machine.judgeStored
  split
  · exact refl s
  · split
    · exact refl s
    · exact refl s
    · exact refl s
    · exact h

end Keeps

end Sys2Proof.Machine
end

section

-- One thread per proof would pass the memory limit of the build: each has a stack of its own.
set_option Elab.async false

namespace Sys2Proof.Machine

/-! ### Slots -/

/-- R30: a FRESH slot has a last good value with its time. -/
def Slot.Held (sl : Slot) : Prop :=
  sl.state = .fresh → sl.lastGood.isSome = true ∧ sl.goodAt.isSome = true

theorem sensorWf_iff (s : State) :
    SensorWf s ↔ s.sensor.queue.length ≤ 16 ∧ ∀ i, (s.sensor.slots.get i).Held := Iff.rfl

theorem Slot.held_freshened (sl : Slot) (v : Int) (time : Nat) (u : Bool) : (sl.freshened v time u).Held :=
  fun _ => ⟨rfl, rfl⟩

theorem Slot.held_substitute (sl : Slot) (cause : Cause) : (sl.substitute cause).Held := nofun

theorem Slot.held_atStart : Slot.atStart.Held := nofun

theorem Slot.held_restored (v : Option Int) : (Slot.restored v).Held := by cases v <;> nofun

theorem Slot.Held.congr {a b : Slot} (h : a.Held) (hs : b.state = a.state) (hg : b.lastGood = a.lastGood)
    (ht : b.goodAt = a.goodAt) : b.Held := by
  unfold Slot.Held; rw [hs, hg, ht]; exact h

theorem Slot.Held.atBoundary {sl : Slot} (h : sl.Held) (maxAge : Nat) : (sl.atBoundary maxAge).Held := by
  unfold Slot.atBoundary
  split
  · split <;> exact h.congr rfl rfl rfl
  · exact h

namespace Keeps

/-- The reading queue grows no longer than 16, and the slots stay as good as they were. -/
theorem mapSensor (s : State) (f : Sensor → Sensor) (hq : s.sensor.queue.length ≤ 16 → (f s.sensor).queue.length ≤ 16)
    (hs : ∀ i, (s.sensor.slots.get i).Held → ((f s.sensor).slots.get i).Held) : Keeps s (s.mapSensor f) :=
  setSensor s _ fun ⟨h, k⟩ => ⟨hq h, fun i => hs i (k i)⟩

theorem setSlot (s : State) (i : Fin 24) (sl : Slot) (h : (s.sensor.slots.get i).Held → sl.Held) :
    Keeps s (s.setSlot i sl) := by
  refine mapSensor s _ id fun j hj => ?_
  dsimp only
  rw [Table.get_set]
  split
  case isTrue hij => subst hij; exact h hj
  case isFalse => exact hj

/-! ### Sensor link -/

theorem offerReading (s : State) (r : Reading) : Keeps s (s.offerReading r) := by
  unfold State.offerReading
  split
  case isTrue hlen =>
    refine mapSensor s _ (fun _ => ?_) fun _ h => h
    simp only [List.length_append, List.length_cons, List.length_nil]; omega
  case isFalse =>
    split
    · exact trans (t := s.mapSensor fun x => { x with overrunArmed := false }) {} (post ..)
    · exact refl s

theorem linkCharacter (s : State) (v : Bool) : Keeps s (s.linkCharacter v) := by
  unfold State.linkCharacter
  split
  · exact trans (t := s.mapSensor fun x => { x with linkUp := true }) {} ((askFlag ..).trans (post ..))
  · exact refl s

theorem assembleCharacter (s : State) (c : Byte) (v : Bool) : Keeps s (s.assembleCharacter c v) := by
  have h : ∀ a, Keeps s (s.mapSensor fun x => { x with assembler := a }) := fun a => {}
  unfold State.assembleCharacter
  dsimp only
  split
  · exact h _
  · split
    · exact h _
    · exact (h _).trans (offerReading ..)

theorem breakDetected (s : State) : Keeps s s.breakDetected := by
  unfold State.breakDetected
  dsimp only
  split
  · refine trans (t := s.mapSensor fun x => { x with
      assembler := .hunting, breakStanding := true, linkUp := false, breakAt := s.clock.time }) {} ?_
    exact (askFlag ..).trans (post ..)
  · exact {}

theorem substituteSlot (s : State) (i : Fin 24) (c : Cause) : Keeps s (s.substituteSlot i c) :=
  (setSlot s i _ fun _ => Slot.held_substitute _ c).trans (post ..)

theorem applyReading (s : State) (r : Reading) : Keeps s (s.applyReading r) := by
  unfold State.applyReading
  dsimp only
  split
  · have h := setSlot s r.slot _ fun _ =>
      Slot.held_freshened (s.sensor.slots.get r.slot) r.value s.clock.time r.uncalibrated
    split
    · exact h.trans (post ..)
    · exact h
  · split
    · exact setSlot s _ _ fun h => h.congr rfl rfl rfl
    · exact substituteSlot ..

theorem slotAgeStep (s : State) (i : Fin 24) : Keeps s (s.slotAgeStep i) := by
  have h := setSlot s i { s.sensor.slots.get i with ageDue := false } fun h => h.congr rfl rfl rfl
  unfold State.slotAgeStep
  dsimp only
  split
  · split
    · split
      · refine h.trans (setSlot _ _ _ fun h => ?_)
        simp only [State.setSlot, State.mapSensor_sensor, Table.get_set_same] at h
        exact h.congr rfl rfl rfl
      · exact h.trans (substituteSlot ..)
    · exact h
  · exact refl s

/-! ### Declarations and pulse inputs -/

theorem declAgeStep (s : State) (d : Fin 13) : Keeps s (s.declAgeStep d) := by
  have h : ∀ r, Keeps s (s.setDecl d r) := fun r => {}
  unfold State.declAgeStep
  dsimp only
  split
  · split
    · exact h _
    · split
      · exact h _
      · exact (h _).trans (post ..)
  · exact refl s

theorem passMs (s : State) (ms : Nat) : Keeps s (s.passMs ms) := by
  obtain ⟨m, p, x, e, h⟩ := s.passMs_frame ms
  rw [h]; exact {}

theorem mapInput (s : State) (pin : Fin 8) (f : PulseInput → PulseInput) : Keeps s (s.mapInput pin f) := {}

theorem windowEnd (s : State) (i : Fin 8) : Keeps s (s.windowEnd i) := by
  have h : ∀ w, Keeps s (s.mapPulses fun x => { x with windows := x.windows.set i w }) := fun w => {}
  unfold State.windowEnd
  dsimp only
  split
  · split
    · exact (h _).trans (post ..)
    · exact h _
  · exact refl s

theorem endWindows (s : State) : Keeps s s.endWindows := foldl _ windowEnd _ s

/-! ### Fiscal integration -/

/-- R47: an increment leaves total and residual below 10⁹. -/
theorem integrateStreams (s : State) (label : Nat) : Keeps s (s.integrateStreams label) := by
  unfold State.integrateStreams
  refine trans (t := { s with
    fiscal := ⟨s.integratedStreams label, none⟩
    pulses := ⟨s.pulses.inputs.map fun x => { x with count := 0 }, s.addedWindows⟩ }) ?_ (foldl _ (fun _ _ => post ..) _ _)
  refine { figures := fun ⟨hf, hk⟩ => ⟨fun i => ?_, hk⟩ }
  simp only [State.integratedStreams, Table.get_mapFin]
  split
  · exact ⟨Nat.mod_lt _ (by decide), Nat.mod_lt _ (by decide)⟩
  · exact hf i

theorem countFrame (s : State) (label : Nat) : Keeps s (s.countFrame label) := by
  unfold State.countFrame
  split
  · exact refl s
  · split
    · exact refl s
    · split
      · exact {}
      · refine { figures := fun ⟨hf, hk⟩ => ⟨fun i => ?_, hk⟩ }
        simp only [State.averagedStreams, Table.get_mapFin]
        exact hf i

/-! ### Billing -/

theorem creditDelivery (s : State) (n : Nat) : Keeps s (s.creditDelivery n) := by
  obtain ⟨b, h⟩ := s.creditDelivery_frame n
  rw [h]; exact {}

theorem mapContract (s : State) (c : Fin 4) (f : Contract → Contract) : Keeps s (s.mapContract c f) := {}

theorem handAccount (s : State) (c : Fin 4) (a : Account) : Keeps s (s.handAccount c a) :=
  mapStore s _ (Store.Within.trans {} (Store.enqueue_within _ _ (fun _ => nofun)))

theorem openTariff (s : State) (c : Fin 4) : Keeps s (s.openTariff c) := by
  unfold State.openTariff
  dsimp only
  split
  · exact refl s
  · split
    · exact refl s
    · split
      · exact (mapContract ..).trans (post ..)
      · exact (mapContract ..).trans (post ..)

theorem closePeriod (s : State) (c : Fin 4) (l : Nat) (d : Bool) : Keeps s (s.closePeriod c l d) := by
  unfold State.closePeriod
  extract_lets old opened ended s1 s2 s3 s4
  have h4 : Keeps s s4 := (((mapContract s c _).trans (openTariff s1 c)).trans (mapContract s2 c _)).trans (post s3 ..)
  split
  · exact h4
  · exact h4.trans (handAccount ..)

theorem settleBoundary (s : State) (c : Fin 4) (l : Nat) : Keeps s (s.settleBoundary c l) := by
  have h : ∀ cause, Keeps s (s.extendPeriod c l cause) := fun _ => (mapContract ..).trans (post ..)
  unfold State.settleBoundary
  dsimp only
  split
  · exact h 2
  · split
    · exact closePeriod ..
    · split
      · exact closePeriod ..
      · exact h 1

theorem takeBoundaries (s : State) (l : Nat) : Keeps s (s.takeBoundaries l) := by
  refine foldl _ (fun t c => ?_) _ s
  unfold State.takeBoundary
  split
  · exact (settleBoundary ..).trans (mapContract ..)
  · exact refl t

theorem stageRule (e : Nat) (b : List Band) (q : Nat) (s : State) (c : Fin 4) : Keeps s (stageRule e b q s c).1 := by
  unfold Machine.stageRule
  dsimp only
  split
  · exact refl s
  · split
    · exact refl s
    · split_ifs
      · exact refl s
      · exact refl s
      · exact trans (t := { s with billing := { s.billing with counter := nextIdentity s.billing.counter } }) {}
          ((mapContract ..).trans (post ..))

theorem consentRule (n : Nat) (s : State) (c : Fin 4) : Keeps s (consentRule n s c).1 := by
  unfold Machine.consentRule
  split
  · exact refl s
  · split
    · exact refl s
    · exact mapContract ..

theorem withdrawRule (s : State) (c : Fin 4) : Keeps s (withdrawRule s c).1 := by
  unfold Machine.withdrawRule
  split
  · exact refl s
  · split
    · exact refl s
    · exact (mapContract ..).trans (post ..)

/-! ### Export tracking -/

theorem closeInterval (s : State) : Keeps s s.closeInterval := by
  unfold State.closeInterval
  split
  · exact refl s
  · dsimp only
    split
    · exact (mapContract ..).trans (post ..)
    · exact mapContract ..

theorem judgeDeviation (s : State) (l : Nat) : Keeps s (s.judgeDeviation l) :=
  trans (t := s.mapTracker fun x => { x with behind := _ }) {} (askFlag ..)

end Keeps

/-- R125: the interval that begins takes its nomination out of the queue, and those left lie behind it. -/
theorem Tracker.Wf.beginNext {t : Tracker} (h : t.Wf) : t.beginNext.Wf := by
  obtain ⟨hrise, hrange⟩ := h
  unfold Tracker.beginNext
  dsimp only
  split
  case h_1 x rest hq =>
    rw [hq] at hrise hrange
    obtain ⟨hx, hrest⟩ := List.pairwise_cons.mp hrise
    split
    case isTrue hi =>
      refine ⟨hrest, fun y hy => ?_⟩
      have h1 := hx y hy
      have h2 := hrange y (List.mem_cons_of_mem _ hy)
      dsimp only; omega
    case isFalse hi =>
      refine ⟨by simpa only [hq] using hrise, fun y hy => ?_⟩
      rw [hq] at hy
      have h0 := hrange x (List.mem_cons_self ..)
      have h2 := hrange y hy
      rcases List.mem_cons.mp hy with rfl | hy
      · dsimp only; omega
      · have h1 := hx y hy
        dsimp only; omega
  case h_2 hq =>
    exact ⟨by simp only [hq, List.Pairwise.nil], fun y hy => by simp only [hq] at hy; cases hy⟩

theorem mem_enterNomination {q : List Nomination} {x y : Nomination} (h : y ∈ enterNomination q x) : y = x ∨ y ∈ q := by
  induction q with
  | nil => exact .inl (List.mem_singleton.mp h)
  | cons a q ih =>
    unfold enterNomination at h
    split at h
    · exact (List.mem_cons.mp h)
    · split at h
      · exact (List.mem_cons.mp h).imp_right (List.mem_cons_of_mem _)
      · rcases List.mem_cons.mp h with rfl | h
        · exact .inr (List.mem_cons_self ..)
        · exact (ih h).imp_right (List.mem_cons_of_mem _)

/-- R118: a nomination enters at its place. -/
theorem enterNomination_pairwise {q : List Nomination} (h : q.Pairwise (fun a b => a.interval < b.interval))
    (x : Nomination) : (enterNomination q x).Pairwise (fun a b => a.interval < b.interval) := by
  induction q with
  | nil => exact List.pairwise_singleton ..
  | cons a q ih =>
    obtain ⟨ha, hq⟩ := List.pairwise_cons.mp h
    unfold enterNomination
    split
    case isTrue hlt =>
      refine List.pairwise_cons.mpr ⟨fun y hy => ?_, h⟩
      rcases List.mem_cons.mp hy with rfl | hy
      · exact hlt
      · exact lt_trans hlt (ha y hy)
    case isFalse hge =>
      split
      case isTrue heq => exact List.pairwise_cons.mpr ⟨fun y hy => heq ▸ ha y hy, hq⟩
      case isFalse hne =>
        refine List.pairwise_cons.mpr ⟨fun y hy => ?_, ih hq⟩
        rcases mem_enterNomination hy with rfl | hy
        · omega
        · exact ha y hy

theorem Tracker.Wf.enter {t : Tracker} (h : t.Wf) {x : Nomination} (hlo : t.running + 1 ≤ x.interval)
    (hhi : x.interval ≤ t.running + 8) : ({ t with queue := enterNomination t.queue x } : Tracker).Wf := by
  refine ⟨enterNomination_pairwise h.1 x, fun y hy => ?_⟩
  rcases mem_enterNomination hy with rfl | hy
  · exact ⟨hlo, hhi⟩
  · exact h.2 y hy

theorem Tracker.Wf.filter {t : Tracker} (h : t.Wf) (f : Nomination → Bool) :
    ({ t with queue := t.queue.filter f } : Tracker).Wf :=
  ⟨h.1.filter f, fun y hy => h.2 y (List.mem_filter.mp hy).1⟩

/-- A nomination reaches its rule for one of the eight intervals after the running one alone (R119). -/
theorem judgeNomination_cases (s : State) (p : Party) (interval kwh : Nat) (rule : State × Reply) :
    (∃ r, judgeNomination s p interval kwh rule = refuse s r) ∨
    (s.tracker.running + 1 ≤ interval ∧ interval ≤ s.tracker.running + 8 ∧
      judgeNomination s p interval kwh rule = rule) := by
  unfold judgeNomination
  split
  · exact .inl ⟨_, rfl⟩
  · split
    · exact .inl ⟨_, rfl⟩
    · split
      · exact .inl ⟨_, rfl⟩
      · exact .inr ⟨by omega, by omega, rfl⟩

namespace Keeps

theorem handOff (s : State) (label carry : Nat) : Keeps s (s.handOff label carry) := by
  have h : Keeps s (s.mapTracker fun t => { t with e := min 4294967295 (t.e + carry) }) := {}
  unfold State.handOff
  dsimp only
  split
  · exact ((h.trans (closeInterval _)).trans (setTracker _ _ Tracker.Wf.beginNext)).trans (judgeDeviation ..)
  · exact h.trans (judgeDeviation ..)

theorem nominateRule (p : Party) (i k : Nat) (s : State) : Keeps s (nominateRule p i k s).1 := by
  unfold Machine.nominateRule
  rcases judgeNomination_cases s p i k _ with ⟨r, h⟩ | ⟨hlo, hhi, h⟩ <;> rw [h]
  · exact refl s
  · exact setTracker s _ fun h => h.enter hlo hhi

theorem cancelRule (p : Party) (i : Nat) (s : State) : Keeps s (cancelRule p i s).1 := by
  unfold Machine.cancelRule
  rcases judgeNomination_cases s p i 0 _ with ⟨r, h⟩ | ⟨-, -, h⟩ <;> rw [h]
  · exact refl s
  · exact setTracker s _ fun h => h.filter _

/-! ### Grants -/

theorem postGrant (s : State) (e : Fin 12) (g id : Nat) (r : Bool) : Keeps s (s.postGrant e g id r) := post ..

/-- R98, R99: what is handed to a present entry. -/
theorem handGrant (s : State) (e : Fin 12) (g : Nat) (h : s.img.operator e ≠ none) : Keeps s (s.handGrant e g) := by
  unfold State.handGrant
  dsimp only
  split
  · exact refl s
  · split
    · refine trans (setConsumer s e _ (fun _ => Consumer.wf_posting ..)
        (fun _ => Consumer.settled_of_changing rfl) fun hn => absurd hn h) (postGrant ..)
    · exact setConsumer s e _ (fun _ => Consumer.wf_settle _) (fun _ => Consumer.settled_settle _) fun hn => absurd hn h

theorem firstExpiry (s : State) (e : Fin 12) (h : (s.consumer e).state = .changing) : Keeps s (s.firstExpiry e) := by
  rw [State.firstExpiry_eq_postGrant]
  refine trans (setConsumer s e ((s.consumer e).retrying s.img.confirmationTime) (fun hw => ?_)
    (fun hs => hs.congr rfl rfl) fun _ => id) (postGrant ..)
  exact ⟨hw.1, Nat.le_refl 1, fun hne => absurd h hne⟩

theorem secondExpiry (s : State) (e : Fin 12) (h : (s.consumer e).state = .changing) : Keeps s (s.secondExpiry e) := by
  refine trans (setConsumer s e _ (fun _ => ?_) (fun _ => Consumer.settled_of_unresponsive rfl) fun _ ho => ?_) (post ..)
  · simp [Consumer.Wf]
  · rw [h] at ho; cases ho

theorem acceptConsumer (s : State) (e : Fin 12) (c : Consumer) (r : Result) (h : Keeps s (s.setConsumer e c)) :
    Keeps s (acceptConsumer s e c r).1 := h

/-- The answers of an operating party (R104 to R109). -/
theorem settling (s : State) (e : Fin 12) (c : Consumer) (r : Result) (h : s.img.operator e ≠ none) :
    Keeps s (Machine.acceptConsumer s e c.settle r).1 :=
  setConsumer s e _ (fun _ => c.wf_settle) (fun _ => c.settled_settle) fun hn => absurd hn h

theorem confirmRule (id : Nat) (s : State) (e : Fin 12) (h : s.img.operator e ≠ none) :
    Keeps s (confirmRule id s e).1 := by
  unfold Machine.confirmRule
  dsimp only
  split
  · split
    · exact settling _ _ _ _ h
    · exact refl s
  · split
    · exact settling _ _ _ _ h
    · exact refl s
  · exact refl s

theorem refuseGrantRule (id a : Nat) (s : State) (e : Fin 12) (h : s.img.operator e ≠ none) :
    Keeps s (refuseGrantRule id a s e).1 := by
  unfold Machine.refuseGrantRule
  dsimp only
  split
  · split
    · exact settling _ _ _ _ h
    · exact refl s
  · exact refl s

theorem tripRule (s : State) (e : Fin 12) (h : s.img.operator e ≠ none) : Keeps s (tripRule s e).1 := by
  unfold Machine.tripRule
  dsimp only
  split
  · exact refl s
  · exact setConsumer s e _ (fun _ => Consumer.wf_tripped _) (fun _ => Consumer.settled_tripped _) fun hn => absurd hn h

theorem parkRule (v : Bool) (s : State) (e : Fin 12) : Keeps s (parkRule v s e).1 :=
  setConsumer s e _ (fun h => h.congr rfl rfl rfl rfl) (fun h => h.congr rfl rfl) fun _ => id

theorem setLimitsRule (l : Limits) (s : State) (e : Fin 12) : Keeps s (setLimitsRule l s e).1 := by
  unfold Machine.setLimitsRule
  split
  · exact setConsumer s e _ (fun h => h.limitTo l) (fun h => h.limitTo l) fun _ => id
  · exact refl s

/-! ### Allocation -/

theorem setFlare (s : State) (n : Nat) : Keeps s (s.setFlare n) := by
  have h : Keeps s (s.mapAlloc fun a => { a with flare := n }) := {}
  unfold State.setFlare
  dsimp only
  split
  · exact (h.trans (u := State.mapAlloc _ fun a => { a with reportedFlare := n }) {}).trans (post ..)
  · exact h

theorem judgeBand (s : State) (b : HolderBand) (l : Int) : Keeps s (s.judgeBand b l) := by
  have h : Keeps s (s.mapAlloc fun a => { a with band := b }) := {}
  unfold State.judgeBand
  dsimp only
  split
  · exact h
  · exact h.trans (post ..)

theorem holderFlags (s : State) (b : HolderBand) : Keeps s (s.holderFlags b) := by
  have h : ∀ (t : State) (c v : Bool) (f : Fin 8), Keeps t (if c then t else t.askFlag f v) := by
    intro t c v f; split
    · exact refl t
    · exact askFlag ..
  have k : ∀ (t : State) (c v : Bool) (f : Fin 8), Keeps t (if c then t.askFlag f v else t) := by
    intro t c v f; split
    · exact askFlag ..
    · exact refl t
  exact (((h ..).trans (h ..)).trans (k ..)).trans (k ..)

end Keeps

/-- R80: an absent entry is skipped as ABSENT. -/
theorem State.disposition_of_absent {s : State} {e : Fin 12} (h : s.img.operator e = none) (band : HolderBand) :
    s.disposition band e = .absent := by
  simp [State.disposition, h]

/-- R88: the frame has no grant for an absent entry. -/
theorem State.frameSummary_grant_of_absent {s : State} {e : Fin 12} (h : s.img.operator e = none) (l n p : Nat) :
    ((s.frameSummary l n p).outcomes.get e).grant = none := by
  simp only [State.frameSummary, Table.get_ofFn, State.disposition_of_absent h]

@[simp] theorem State.judgeBand_station (s : State) (b : HolderBand) (l : Int) : (s.judgeBand b l).station = s.station := by
  unfold State.judgeBand; dsimp only; split <;> simp

@[simp] theorem State.setFlare_station (s : State) (n : Nat) : (s.setFlare n).station = s.station := by
  unfold State.setFlare; dsimp only; split <;> simp

@[simp] theorem State.holderFlags_station (s : State) (b : HolderBand) : (s.holderFlags b).station = s.station := by
  unfold State.holderFlags
  cases b <;> simp

@[simp] theorem State.handGrant_station (s : State) (e : Fin 12) (g : Nat) : (s.handGrant e g).station = s.station := by
  obtain ⟨p, x, h⟩ := s.handGrant_frame e g
  rw [h]

namespace Keeps

/-- The frame grants are handed to present entries alone (R90). -/
theorem handOver (s : State) (f : FrameSummary) (h : ∀ e, s.img.operator e = none → (f.outcomes.get e).grant = none) :
    Keeps s (s.handOver f) := by
  refine (List.foldlRecOn _ _ (motive := fun t => Keeps s t ∧ t.station = s.station) ⟨refl s, rfl⟩ ?_).1
  rintro t ⟨ht, hst⟩ e -
  split
  case h_1 g hg =>
    have hop : t.img.operator e ≠ none := fun hn => by
      rw [State.img_congr hst] at hn
      rw [h e hn] at hg; cases hg
    exact ⟨ht.trans (handGrant t e g hop), by rw [State.handGrant_station, hst]⟩
  case h_2 => exact ⟨ht, hst⟩

theorem runFrame (s : State) (label : Nat) : Keeps s (s.runFrame label) := by
  unfold State.runFrame
  extract_lets number f s1 s2 s3 s4
  have h1 : Keeps s s1 := {}
  have h3 : Keeps s2 s3 := {}
  have h4 : Keeps s s4 := ((h1.trans (judgeBand s1 ..)).trans h3).trans ((setFlare s3 _).trans (holderFlags ..))
  have hstation : s4.station = s.station := by simp [s4, s3, s2, s1]
  refine (h4.trans (handOver s4 f fun e he => ?_)).trans {}
  exact State.frameSummary_grant_of_absent (by rwa [State.img_congr hstation] at he) ..

theorem takeFrameCompletion (s : State) : Keeps s s.takeFrameCompletion := by
  unfold State.takeFrameCompletion
  split
  · exact trans (t := s.mapAlloc fun a => { a with frameDue := none }) {} (runFrame ..)
  · exact refl s

/-! ### Checkpoints -/

/-- A checkpoint that is gathered holds what the state holds (R58, R115, R131, R168). -/
theorem gatherNow (s : State) (b : Bool) : Keeps s (s.gatherNow b) := by
  have hold : ∀ {c}, (s.gatherNow b).store.Holds c → s.store.Holds c ∨ c = s.gather b := fun hc =>
    (Store.enqueue_holds hc).imp id fun e => by cases e; rfl
  refine {
    grants := fun ⟨ho, hs, hk⟩ => ⟨ho, hs, fun c hc e => ?_⟩
    figures := fun ⟨hf, hk⟩ => ⟨hf, fun c hc i => ?_⟩
    nominations := fun ⟨hn, hk⟩ => ⟨hn, fun c hc => ?_⟩
    array := fun h => by
      show Cells.wf (Store.enqueue _ _).cells = true
      rw [Store.enqueue_cells]; exact h }
  · rcases hold hc with hc | rfl
    · exact hk c hc e
    · simp only [State.gather, Table.get_map]; exact hs e
  · rcases hold hc with hc | rfl
    · exact hk c hc i
    · simp only [State.gather, State.streamsKept, Table.get_mapFin]; exact hf i
  · rcases hold hc with hc | rfl
    · exact hk c hc
    · exact hn

theorem beginCheckpoint (s : State) (b : Bool) : Keeps s (s.beginCheckpoint b) := by
  unfold State.beginCheckpoint
  split
  · exact {}
  · exact gatherNow ..

theorem gatherWaiting (s : State) : Keeps s s.gatherWaiting := by
  unfold State.gatherWaiting
  split
  · exact gatherNow ..
  · exact refl s

theorem setClock (s : State) (k : Clock) : Keeps s { s with clock := k } := {}

theorem takeCheckpoint (s : State) : Keeps s s.takeCheckpoint := by
  unfold State.takeCheckpoint
  split
  · split
    · exact setClock ..
    · exact (setClock ..).trans (beginCheckpoint ..)
  · exact refl s

end Keeps

end Sys2Proof.Machine
end

section

-- One thread per proof would pass the memory limit of the build: each has a stack of its own.
set_option Elab.async false

namespace Sys2Proof.Machine

/-- R183: the ports of a restart are empty. -/
theorem wf_restartPorts (image : Option (Nat × Programmed)) (i : Fin 3) : ((restartPorts image).get i).Wf := by
  rw [restartPorts, Table.get_ofFn]; exact Port.wf_atStart _

/-- R17: absent entries are OUT at the start of the station. -/
theorem firstAllocator_consumers (img : Image) (e : Fin 12) :
    (firstAllocator img).consumers.get e = firstConsumer img e := Table.get_ofFn ..

theorem State.consumer_of_first {s : State} {img : Image} (h : s.alloc = firstAllocator img) (e : Fin 12) :
    s.consumer e = firstConsumer img e := by
  rw [State.consumer, h, firstAllocator_consumers]

theorem State.enterFromBlank_store (s : State) : s.enterFromBlank.store = s.store.listHeld := by
  simp only [State.enterFromBlank]

theorem Tracker.wf_of_empty {t : Tracker} (h : t.queue = []) : t.Wf := by
  unfold Tracker.Wf; rw [h]; exact ⟨.nil, nofun⟩

namespace Keeps

/-! ### The station -/

theorem writeConfigRule (a b : Nat) (v : Int) (s : State) : Keeps s (writeConfigRule a b v s).1 := by
  unfold Machine.writeConfigRule
  split
  · exact refl s
  · split
    · exact refl s
    · split
      · exact refl s
      · split
        · exact refl s
        · exact {}

theorem queueConfig (s : State) (p : Party) (n : Nat) : Keeps s (s.queueConfig p n) :=
  trans (t := s.mapStation fun x => { x with commit := some ⟨p, n, .programming⟩ }) {}
    (mapStore _ _ (Store.enqueue_within _ _ fun _ => nofun))

theorem beginCommit (s : State) (p : Party) : Keeps s (s.beginCommit p) := by
  unfold State.beginCommit
  dsimp only
  split
  · exact queueConfig ..
  · exact trans (t := s.mapStation fun x => { x with commit := some ⟨p, s.commitTarget, .erasingTarget⟩ }) {}
      (mapStore _ _ (Store.listErase_within ..))

theorem failCommit (s : State) : Keeps s s.failCommit := by
  rcases s.failCommit_cases with ⟨-, h⟩ | ⟨c, -, h⟩ <;> rw [h]
  · exact refl s
  · exact trans (t := { s with station := { s.station with commit := none, approvals := Table.replicate 3 false } }) {}
      (respond ..)

theorem approveRule (p : Party) (w : Nat) (s : State) : Keeps s (approveRule p w s).1 := by
  have h : Keeps s (s.mapStation fun x => { x with approvals := x.approvals.set (partyIndex p) true }) := {}
  unfold Machine.approveRule
  dsimp only
  split
  · exact refl s
  · split
    · exact refl s
    · split
      · exact refl s
      · split
        · exact refl s
        · split
          · exact h.trans (beginCommit ..)
          · exact h

/-- R17: every block starts as new. -/
theorem enterFromBlank (s : State) : Keeps s s.enterFromBlank := by
  have hstore : s.store.Within s.enterFromBlank.store := by
    rw [State.enterFromBlank_store]; exact s.store.listHeld_within
  have hcons : ∀ e, s.enterFromBlank.consumer e = firstConsumer s.editImage e := State.consumer_of_first rfl
  refine {
    ports := fun h p => ?_
    consumers := fun _ e => by rw [hcons]; exact Consumer.wf_first ..
    grants := fun ⟨_, _, hk⟩ => ⟨fun e he => ?_, fun e => by rw [hcons]; exact Consumer.settled_first ..,
      fun c hc => hk c (hstore.holds c hc)⟩
    figures := fun ⟨_, hk⟩ => ⟨fun i => ?_, fun c hc => hk c (hstore.holds c hc)⟩
    sensor := fun _ => (sensorWf_iff _).mpr ⟨Nat.zero_le _, fun i => ?_⟩
    nominations := fun ⟨_, hk⟩ => ⟨Tracker.wf_of_empty rfl, fun c hc => hk c (hstore.holds c hc)⟩
    array := hstore.cells }
  · simp only [State.port, State.enterFromBlank, Table.get_ofFn]
    exact h p
  · rw [hcons, firstConsumer_of_absent (img := s.editImage) he]; rfl
  · simp only [State.enterFromBlank, Fiscal.atStart, Table.get_replicate]; decide
  · simp only [State.enterFromBlank, Sensor.atStart, Table.get_replicate]; exact Slot.held_atStart

/-- R18: what the commit changes stays well formed. -/
theorem enterFromReconfiguring (s : State) : Keeps s s.enterFromReconfiguring := by
  have hcons : ∀ e, s.enterFromReconfiguring.consumer e = committedConsumer s.img s.editImage e (s.consumer e) :=
    fun e => Table.get_mapFin ..
  refine {
    consumers := fun h e => by rw [hcons]; exact (h e).committed ..
    grants := fun ⟨_, hs, hk⟩ => ⟨fun e he => ?_, fun e => by rw [hcons]; exact (hs e).committed .., hk⟩
    sensor := fun ⟨hq, hs⟩ => (sensorWf_iff _).mpr ⟨hq, fun i => ?_⟩ }
  · rw [hcons, committedConsumer_of_absent (new := s.editImage) he]; rfl
  · simp only [State.enterFromReconfiguring, Table.get_mapFin, committedSlot]
    split
    · exact hs i
    · exact Slot.held_atStart

theorem enterOperating (s : State) : Keeps s s.enterOperating := by
  unfold State.enterOperating
  split
  · exact refl s
  · refine trans ?_ (respond ..)
    split
    · exact enterFromBlank s
    · exact (endWindows s).trans (enterFromReconfiguring _)

theorem endCommit (s : State) : Keeps s s.endCommit := by
  unfold State.endCommit
  split
  · exact {}
  · exact enterOperating s

theorem enterWaiting (s : State) : Keeps s s.enterWaiting := by
  unfold State.enterWaiting
  split
  · split
    · exact enterOperating s
    · exact refl s
  · exact refl s

theorem enterReconfiguring (s : State) : Keeps s s.enterReconfiguring where
  figures := fun ⟨hf, hk⟩ => ⟨fun i => by
    simp only [State.enterReconfiguring, Fiscal.dropSums, Table.get_map]; exact hf i, hk⟩

theorem recommissionRule (p : Party) (s : State) : Keeps s (recommissionRule p s).1 := by
  have h : Keeps s (s.mapStation fun x => { x with recommission := x.recommission.mark p }) := {}
  unfold Machine.recommissionRule
  dsimp only
  split
  · exact refl s
  · dsimp only
    split
    · exact h.trans (enterReconfiguring _)
    · exact h

theorem expireRecommission (s : State) : Keeps s s.expireRecommission := by
  unfold State.expireRecommission
  split
  · exact {}
  · exact refl s

theorem expireClearStore (s : State) : Keeps s s.expireClearStore := by
  unfold State.expireClearStore
  split
  · exact {}
  · exact refl s

theorem clearStoreRule (p : Party) (s : State) : Keeps s (clearStoreRule p s).1 := by
  have h : Keeps s (s.mapStation fun x => { x with clearStore := x.clearStore.mark p }) := {}
  unfold Machine.clearStoreRule
  dsimp only
  split
  · exact refl s
  · dsimp only
    split
    · exact (h.trans (setStore _ _ (Store.beginClear_within ..))).trans {}
    · exact h

/-! ### The clock -/

theorem raiseDomain (s : State) : Keeps s s.raiseDomain := {}

theorem applyAdjustment (s : State) (p q : Party) (n : Int) : Keeps s (s.applyAdjustment p q n) :=
  (setClock ..).trans (post ..)

theorem adjustRule (p : Party) (n : Int) (s : State) : Keeps s (adjustRule p n s).1 := by
  unfold Machine.adjustRule
  split
  · exact refl s
  · split
    · exact setClock ..
    · split
      · exact setClock ..
      · exact applyAdjustment ..

/-! ### The array at work -/

/-- An operation leaves the queue and is served (R154). -/
theorem serve {s : State} {op : ArrayOp} {rest : List ArrayOp} (hop : op ∈ s.store.queue)
    (hrest : ∀ x ∈ rest, x ∈ s.store.queue) : Keeps s ((s.mapStore fun st => { st with queue := rest }).serve op) := by
  have hq := Store.Within.shorten s.store rest hrest
  have hbusy : ∀ x : Activity, (∀ c n, x ≠ .checkpoint c n) →
      Keeps s { s with store := { s.store with queue := rest, current := some x } } := fun x hx =>
    setStore s _ (hq.trans (Store.Within.serving _ (some x) _ (fun c n h => hx c n (Option.some.inj h)) id))
  unfold State.serve
  split
  case h_1 r =>
    split
    case h_1 sector unit _ =>
      exact setStore s _ ((hq.trans (Store.enter_within _ sector unit)).trans
        (Store.Within.serving _ (some (.record r sector unit)) _ (fun _ _ => nofun) id))
    case h_2 => exact setStore s _ hq
  case h_2 => exact hbusy _ fun _ _ h => by cases h
  case h_3 => exact hbusy _ fun _ _ h => by cases h
  case h_4 c =>
    split
    case h_1 n _ =>
      refine setStore s { s.store with queue := rest, current := some (.checkpoint c n) } { holds := fun k hk => ?_ }
      rcases hk with hk | hk | ⟨m, hk⟩
      · exact .inl hk
      · exact .inr (.inl (hrest _ hk))
      · cases hk; exact .inr (.inl hop)
    case h_2 => exact setStore s _ hq
    case h_3 => exact (setStore s _ hq).trans (postDefect ..)
  case h_5 => exact hbusy _ fun _ _ h => by cases h

theorem beginErase (s : State) : Keeps s s.beginErase := by
  have h : ∀ n, s.store.Within { s.store with current := some (.erase n) } := fun n =>
    Store.Within.serving _ (some (.erase n)) _ (fun _ _ => nofun) id
  unfold State.beginErase
  split
  · exact refl s
  · split
    · exact mapStore s _ ((h _).trans {})
    · split
      · exact mapStore s _ ((h _).trans {})
      · exact refl s

theorem arrayServe (s : State) : Keeps s s.arrayServe := by
  unfold State.arrayServe
  split
  · exact refl s
  · split
    case h_1 op rest h =>
      obtain ⟨-, hop, hrest⟩ := takeFirst_mem h
      exact serve hop hrest
    case h_2 => exact beginErase s

theorem recordDone (s : State) (r : PeriodRecord) (a b : Nat) : Keeps s (s.recordDone r a b) := by
  refine ((mapStore s _ ?_).trans (mapContract ..)).trans (post ..)
  exact (Store.Within.serving _ none _ (fun _ _ => nofun) fun h => programBytes_wf h (unitBase a b) r.bytes).trans {}


end Keeps

end Sys2Proof.Machine
end

section

-- One thread per proof would pass the memory limit of the build: each has a stack of its own.
set_option Elab.async false

namespace Sys2Proof.Machine

/-- R160: a failed attempt keeps the array's canonical form. -/
theorem failedCells_wf {m : List Host.Cell} (h : Cells.wf m = true) (a : Nat) (written : List Byte) (unit : Nat)
    (left : List Byte) (tag : Byte) : Cells.wf (failedCells m a written unit left tag) = true :=
  writeCell_wf (programBytes_wf (programBytes_wf h _ _) _ _) _ _

/-- R118: no interval of catch-up leaves a nomination behind. -/
theorem Tracker.Wf.kept {t : Tracker} (h : t.Wf) : t.kept.Wf := h

theorem restored_slot_get (s : State) (c : Checkpoint) (i : Fin 24) :
    (s.restored c).sensor.slots.get i = Slot.restored (c.lastGood.get i) := Table.get_map ..

theorem restored_consumer (s : State) (c : Checkpoint) (e : Fin 12) :
    (s.restored c).consumer e = restoredConsumer s.img e (c.consumers.get e) := Table.get_mapFin ..

namespace Keeps

theorem recordFails (s : State) (r : PeriodRecord) (a b unit : Nat) (left : List Byte) (tag : Byte) :
    Keeps s (s.recordFails r a b unit left tag) := by
  unfold State.recordFails
  extract_lets addr cells st1 retires s1
  have hvoid : s.store.Within st1 := Store.voidAttempt_within _ _ _ _ fun h => failedCells_wf h _ _ _ _ _
  have h1 : Keeps s s1 := by
    simp only [s1]
    split
    · exact (setStore s _ (hvoid.trans (Store.retire_within ..))).trans (postDefect ..)
    · exact setStore s _ hvoid
  split
  · exact h1
  · exact h1.trans (mapStore _ _ (Store.remake_within ..))

theorem markDone (s : State) (p : Party) (a b : Nat) (v : Bool) (c d : Nat) (mark : Byte) :
    Keeps s (s.markDone p a b v c d mark) := by
  have h : ∀ x y, s.store.Within { s.store with cells := writeCell s.store.cells x y, current := none } := fun x y =>
    Store.Within.serving _ none _ (fun _ _ => nofun) fun hc => writeCell_wf hc x y
  unfold State.markDone
  dsimp only
  split
  · exact (setStore s _ (h _ _)).trans (respond ..)
  · exact (setStore s _ (((h _ _).trans {}).trans (Store.release_within _ a))).trans (respond ..)

/-- A request that waits for the store (R161, R165), or a program that joins the queue. -/
theorem enqueue (s : State) (op : ArrayOp) (h : ∀ c, op ≠ .checkpoint c) : Keeps s (s.mapStore fun st => st.enqueue op) :=
  mapStore s _ (Store.enqueue_within _ op h)

theorem releaseRule (p : Party) (a b : Nat) (s : State) : Keeps s (releaseRule p a b s).1 := by
  refine judgeStored s a b _ ?_
  split
  · exact refl s
  · dsimp only
    split
    · exact refl s
    · split_ifs
      · exact refl s
      · exact enqueue s _ fun _ h => by cases h
      · exact refl s
      · exact enqueue s _ fun _ h => by cases h

theorem readRecordRule (p : Party) (a b part : Nat) (s : State) : Keeps s (readRecordRule p a b part s).1 := by
  refine judgeStored s a b _ ?_
  split
  · exact refl s
  · split
    · exact refl s
    · exact enqueue s _ fun _ h => by cases h

theorem configErased (s : State) (n : Nat) (ok : Bool) : Keeps s (s.configErased n ok) := by
  unfold State.configErased
  extract_lets s1
  have h1 : Keeps s s1 := by
    simp only [s1]
    split
    · exact refl s
    · exact postDefect ..
  split
  · exact h1
  · split
    · split
      · exact h1.trans (queueConfig ..)
      · exact h1.trans (failCommit _)
    · split
      · exact h1.trans (endCommit _)
      · exact h1

theorem ckptErased (s : State) (n : Nat) (ok : Bool) : Keeps s (s.ckptErased n ok) := by
  unfold State.ckptErased
  extract_lets s1
  have h1 : Keeps s s1 := setStore s _ (Store.Within.setCkpt s.store (ckptIndex n) _
    fun c w hc => by split at hc <;> cases hc)
  split
  · exact h1
  · exact h1.trans (postDefect ..)

theorem recordErased (s : State) (n : Nat) (ok : Bool) : Keeps s (s.recordErased n ok) := by
  unfold State.recordErased
  extract_lets s1 s2
  have h1 : Keeps s s1 := mapStore s _ {}
  have h2 : Keeps s s2 := by
    simp only [s2]
    split
    · exact h1
    · exact h1.trans (postDefect ..)
  refine h2.trans (mapStore _ _ ?_)
  exact ((Store.moveOffRetired_within _ n).trans {}).trans (Store.testErases_within _)

theorem eraseDone (s : State) (n : Nat) (left : List Byte) : Keeps s (s.eraseDone n left) := by
  unfold State.eraseDone
  extract_lets ok s1
  have h1 : Keeps s s1 := by
    refine setStore s _ (Store.Within.trans (Store.Within.serving s.store none _ (fun _ _ => nofun) fun h => ?_) {})
    split
    · exact h
    · exact leaveSector_wf h n left
  split
  · exact h1.trans (configErased ..)
  · split
    · exact h1.trans (ckptErased ..)
    · exact h1.trans (recordErased ..)

theorem configDone (s : State) (n g : Nat) (img : Image) : Keeps s (s.configDone n g img) := by
  have h := Store.Within.serving s.store none _ (fun _ _ => nofun)
    fun h => programBytes_wf h (sectorBase n) (imageBytes g img)
  unfold State.configDone
  extract_lets s1
  have h1 : Keeps s s1 := setStore s _ ((h.trans {}).trans (Store.listErase_within _ (1 - n)))
  exact h1.trans {}

theorem configFails (s : State) (n unit : Nat) (written left : List Byte) : Keeps s (s.configFails n unit written left) := by
  refine ((setStore s _ ?_).trans (postDefect ..)).trans (failCommit _)
  exact Store.Within.serving s.store none _ (fun _ _ => nofun) fun h => programBytes_wf (programBytes_wf h _ _) _ _

theorem warn (s : State) (torn : Torn) : Keeps s (s.warn torn) := by
  have h := mapStore s (fun st => st.warn torn) (s.store.warn_within torn)
  unfold State.warn
  dsimp only
  split
  · exact refl s
  · split
    · exact {}
    · split
      · exact h
      · exact (h.trans (setClock ..)).trans (beginCheckpoint ..)

/-! ### Restart -/

/-- The blocks take their values from a checkpoint that the array held (R184). -/
theorem restored {s t : State} {c : Checkpoint} (h : Keeps s t) (hc : s.store.Holds c) : Keeps s (t.restored c) where
  ports := h.ports
  consumers := fun _ e => by rw [restored_consumer]; exact Consumer.wf_restored ..
  grants := fun hs => by
    obtain ⟨-, -, hk⟩ := h.grants hs
    refine ⟨fun e he => ?_, fun e => ?_, hk⟩
    · rw [restored_consumer, restoredConsumer_of_absent (img := t.img) he]; rfl
    · rw [restored_consumer]; exact (hs.2.2 c hc e).restored ..
  figures := fun hs => ⟨fun i => by
    simp only [State.restored, Table.get_map]; exact hs.2 c hc i, (h.figures hs).2⟩
  sensor := fun _ => (sensorWf_iff _).mpr ⟨Nat.zero_le _, fun i => by
    rw [restored_slot_get]; exact Slot.held_restored _⟩
  nominations := fun hs => ⟨(hs.2 c hc).kept, (h.nominations hs).2⟩
  array := h.array

/-- With no good checkpoint the blocks start as new (R184). -/
theorem startedAnew (s : State) : Keeps s s.startedAnew := by
  have hcons : ∀ e, s.startedAnew.consumer e = firstConsumer s.img e := State.consumer_of_first rfl
  refine {
    consumers := fun _ e => by rw [hcons]; exact Consumer.wf_first ..
    grants := fun ⟨_, _, hk⟩ => ⟨fun e he => ?_, fun e => by rw [hcons]; exact Consumer.settled_first .., hk⟩
    nominations := fun ⟨_, hk⟩ => ⟨Tracker.wf_of_empty rfl, hk⟩ }
  rw [hcons, firstConsumer_of_absent (img := s.img) he]; rfl

theorem checkClosings (s : State) : Keeps s s.checkClosings := by
  refine foldl _ (fun t c => ?_) _ s
  unfold State.checkClosing
  split
  · exact refl t
  · split
    · exact mapContract ..
    · exact handAccount ..

theorem mapOpened (s : State) (f : Account → Account) : Keeps s (s.mapOpened f) := {}

theorem catchUpAt (s : State) (a b : Nat) : Keeps s (s.catchUpAt a b) := by
  refine trans ?_ (takeBoundaries _ b)
  refine trans (((mapOpened s _).trans (closeInterval _)).trans (setTracker _ _ Tracker.Wf.beginNext)) {}

theorem catchUpSteps (n : Nat) (s : State) (a : Nat) : Keeps s (s.catchUpSteps a n).1 := by
  induction n generalizing s a with
  | zero => exact refl s
  | succ n ih => rw [State.catchUpSteps]; exact (catchUpAt ..).trans (ih ..)

theorem catchUp (s : State) (a b : Nat) (w : Bool) : Keeps s (s.catchUp a b w) := by
  unfold State.catchUp
  extract_lets s1 r
  have h1 : Keeps s s1 := by
    simp only [s1]
    split
    · exact refl s
    · exact mapOpened ..
  exact ((h1.trans (u := s1.markOutage) {}).trans (catchUpSteps ..)).trans (mapOpened ..)

theorem fixResume (s : State) (n : Nat) : Keeps s (s.fixResume n) := by
  unfold State.fixResume
  split
  · exact refl s
  · rename_i r _
    exact trans (t := { s with
      clock := { s.clock with time := n, lastLabel := n }, startup := some { r with resume := some n } }) {} (catchUp ..)

/-- What a restart forgets it sets to values of good form (R183). -/
theorem begunRestart (s : State) (cause : RestartCause) : Keeps s (s.begunRestart cause) := by
  have hstore : s.store.Within (s.begunRestart cause).store := Store.rebuilt_within ..
  have hcons : ∀ e, (s.begunRestart cause).consumer e = Consumer.absent := fun e => Table.get_replicate ..
  refine {
    ports := fun _ p => wf_restartPorts _ _
    consumers := fun _ e => by rw [hcons]; exact Consumer.wf_absent
    grants := fun ⟨_, _, hk⟩ => ⟨fun e _ => by rw [hcons]; rfl, fun e => by rw [hcons]; exact Consumer.settled_absent,
      fun c hc => hk c (hstore.holds c hc)⟩
    figures := fun ⟨_, hk⟩ => ⟨fun i => ?_, fun c hc => hk c (hstore.holds c hc)⟩
    sensor := fun _ => (sensorWf_iff _).mpr ⟨Nat.zero_le _, fun i => ?_⟩
    nominations := fun ⟨_, hk⟩ => ⟨Tracker.wf_of_empty rfl, fun c hc => hk c (hstore.holds c hc)⟩
    array := hstore.cells }
  · simp only [State.begunRestart, Fiscal.atStart, Table.get_replicate]; decide
  · simp only [State.begunRestart, Sensor.atStart, Table.get_replicate]; exact Slot.held_atStart

theorem restart (s : State) (cause : RestartCause) : Keeps s (s.restart cause) := by
  have hbegun := begunRestart s cause
  unfold State.restart
  dsimp only
  split
  · exact hbegun
  · unfold State.resumed
    extract_lets backup s1 s2 s3
    have h1 : Keeps s s1 := hbegun.trans {}
    have h2 : Keeps s s2 := by
      simp only [s2]
      split
      case h_1 f hf => exact h1.restored (foundCheckpoint_holds hf)
      case h_2 => exact h1.trans (startedAnew s1)
    have h3 : Keeps s s3 := h2.trans (checkClosings s2)
    split
    · exact h3
    · exact h3.trans (fixResume ..)

/-! ### The second -/

theorem handOffTick (s : State) (l : Nat) : Keeps s (s.handOffTick l) :=
  ((creditDelivery ..).trans (handOff ..)).trans (takeBoundaries ..)

theorem integrateTick (s : State) (l : Nat) : Keeps s (s.integrateTick l) :=
  (((((integrateStreams s l).trans (handOffTick _ l)).trans (countFrame _ l)).trans (setClock ..)).trans
    (gatherWaiting _)).trans (enterWaiting _)

theorem takeTick (s : State) : Keeps s s.takeTick := by
  unfold State.takeTick
  split
  · split
    · exact integrateTick ..
    · exact refl s
  · exact refl s

theorem settleExpiry (s : State) (e : Fin 12) : Keeps s (s.settleExpiry e) := by
  unfold State.settleExpiry
  split
  case isTrue h => exact firstExpiry s e ((s.expiryDue_iff e 0).mp h).2.1
  case isFalse =>
    split
    case isTrue h => exact secondExpiry s e ((s.expiryDue_iff e 1).mp h).2.1
    case isFalse => exact refl s

theorem settleDue (s : State) : Keeps s s.settleDue := by
  unfold State.settleDue
  extract_lets s1 s2 s3 s4
  have h1 : Keeps s s1 := foldl _ slotAgeStep _ s
  have h2 : Keeps s1 s2 := foldl _ declAgeStep _ s1
  have h3 : Keeps s2 s3 := foldl _ settleExpiry _ s2
  have h4 : Keeps s3 s4 := ((expireRecommission s3).trans (expireClearStore _)).trans (takeTick _)
  have h5 : Keeps s4 _ := ((endWindows s4).trans (takeFrameCompletion _)).trans (takeCheckpoint _)
  exact (((h1.trans h2).trans h3).trans h4).trans h5

theorem completeSecond (s : State) : Keeps s s.completeSecond := (passMs ..).trans (setClock ..)

/-- R32, R100: a boundary ages slots and timers within their forms. -/
theorem ageAll (s : State) : Keeps s s.ageAll := by
  have hcons : ∀ e, s.ageAll.consumer e = (s.consumer e).atBoundary := fun e => Table.get_map ..
  refine {
    consumers := fun h e => by rw [hcons]; exact (h e).atBoundary
    grants := fun ⟨ho, hs, hk⟩ => ⟨fun e he => by rw [hcons, Consumer.atBoundary_state]; exact ho e he,
      fun e => by rw [hcons]; exact (hs e).atBoundary, hk⟩
    sensor := fun ⟨hq, hs⟩ => (sensorWf_iff _).mpr ⟨hq, fun i => ?_⟩ }
  simp only [State.ageAll, Table.get_mapFin]
  exact Slot.Held.atBoundary (hs i) _

theorem startingBoundary (s : State) : Keeps s s.startingBoundary := by
  unfold State.startingBoundary
  split
  · exact refl s
  · split
    · split
      · exact raiseDomain s
      · exact refl s
    · dsimp only
      split
      · exact (raiseDomain s).trans (fixResume ..)
      · exact raiseDomain s

theorem secondPasses (s : State) : Keeps s s.settleDue.completeSecond.raiseDomain.ageAll :=
  (((settleDue s).trans (completeSecond _)).trans (raiseDomain _)).trans (ageAll _)

/-! ### Every command -/

/-- The rule of a request that reads changes nothing. -/
theorem reading (s : State) (p : Party) (r : Request) (rule : State → State × Reply) (h : ∀ t, (rule t).1 = t) :
    Keeps s (s.request p r rule) :=
  request s p r rule fun t _ => of_eq (h t)

theorem of_next {s t u : State} (h : (.next u : Out) = .next t) (k : Keeps s u) : Keeps s t := by
  cases h; exact k

/-- A command that does its work only under a condition. -/
theorem ite {s t u : State} {p : Prop} [Decidable p] (ht : p → Keeps s t) (hu : ¬p → Keeps s u) :
    Keeps s (if p then t else u) := by
  split
  case isTrue h => exact ht h
  case isFalse h => exact hu h

end Keeps

end Sys2Proof.Machine
end

section

-- One thread per proof would pass the memory limit of the build: each has a stack of its own.
set_option Elab.async false

namespace Sys2Proof.Machine

/-! ### The reading requests change nothing -/

theorem readSlotRule_fst (n : Nat) (s : State) : (readSlotRule n s).1 = s := by
  unfold readSlotRule; split <;> rfl

theorem readStreamRule_fst (n : Nat) (s : State) : (readStreamRule n s).1 = s := by
  unfold readStreamRule; split <;> rfl

theorem readDeclarationRule_fst (n : Nat) (s : State) : (readDeclarationRule n s).1 = s := by
  unfold readDeclarationRule; split <;> rfl

theorem readConsumerRule_fst (n : Nat) (s : State) : (readConsumerRule n s).1 = s := by
  unfold readConsumerRule; split <;> rfl

theorem readFrameRule_fst (n : Nat) (s : State) : (readFrameRule n s).1 = s := by
  unfold readFrameRule; split <;> rfl

theorem readStoreRule_fst (n : Nat) (s : State) : (readStoreRule n s).1 = s := by
  unfold readStoreRule; split <;> rfl

theorem ite_fst {p : Prop} [Decidable p] {x y : State × Reply} {s : State} (hx : x.1 = s) (hy : y.1 = s) :
    (if p then x else y).1 = s := by
  split
  · exact hx
  · exact hy

theorem readConfigRule_fst (a b c : Nat) (s : State) : (readConfigRule a b c s).1 = s := by
  unfold readConfigRule
  split
  · rfl
  · rfl
  · split
    · rfl
    · exact ite_fst rfl rfl

theorem readTariffRule_fst (p : Party) (a b : Nat) (s : State) : (readTariffRule p a b s).1 = s := by
  unfold readTariffRule
  split
  · rfl
  · exact ite_fst rfl (ite_fst rfl (ite_fst rfl rfl))

theorem readAccountRule_fst (p : Party) (a b c : Nat) (s : State) : (readAccountRule p a b c s).1 = s := by
  unfold readAccountRule
  split
  · rfl
  · refine ite_fst rfl (ite_fst rfl (ite_fst rfl (ite_fst rfl ?_)))
    split <;> rfl

theorem badFrameJudge_fst (f : FrameFault) (s : State) : (badFrameJudge f s).1 = s := by
  unfold badFrameJudge
  split
  · rfl
  · rfl
  · rfl
  · split <;> rfl

/-- A party's port keeps its form under SET FILTER and TAKE NOTICE (R195, R197). -/
theorem Keeps.setFilterRule (p : Party) (n : Nat) (s : State) : Keeps s (setFilterRule p n s).1 := by
  unfold Machine.setFilterRule
  split
  · exact mapPort s p _ fun _ h => h
  · exact refl s

theorem Keeps.declareRule (p : Party) (a b c : Nat) (s : State) : Keeps s (declareRule p a b c s).1 := by
  unfold Machine.declareRule
  split
  · exact refl s
  · split
    · exact refl s
    · split
      · exact refl s
      · exact {}

theorem Keeps.flagRule (p : Party) (n : Nat) (v : Bool) (s : State) : Keeps s (flagRule p n v s).1 := by
  unfold Machine.flagRule
  split
  · exact refl s
  · split
    · exact refl s
    · split
      · exact refl s
      · exact askFlag ..

/-- Every command keeps the seven forms. -/
theorem exec_keeps {c : Instr} {s t : State} (h : exec c s = .next t) : Keeps s t := by
  cases c with
  | fetch p len chk n => exact .of_next h (.ite (fun _ => .mapPort s p _ fun _ h => h) fun _ => .refl s)
  | takeNotice p => exact .of_next h (.request s p _ _ fun t _ => .mapPort t p _ fun _ h => h.afterTake)
  | setFilter p n => exact .of_next h (.request s p _ _ fun t _ => .setFilterRule p n t)
  | readPort p => exact .of_next h (.reading s p _ _ fun _ => rfl)
  | writeConfig p a b v => exact .of_next h (.request s p _ _ fun t _ => .writeConfigRule a b v t)
  | readConfig p a b c => exact .of_next h (.reading s p _ _ (readConfigRule_fst a b c))
  | readStation p => exact .of_next h (.reading s p _ _ fun _ => rfl)
  | approve p w => exact .of_next h (.request s p _ _ fun t _ => .approveRule p w t)
  | recommission p => exact .of_next h (.request s p _ _ fun t _ => .recommissionRule p t)
  | recommissionWindowExpiry => exact .of_next h (.expireRecommission s)
  | clearStore p => exact .of_next h (.request s p _ _ fun t _ => .clearStoreRule p t)
  | clearStoreWindowExpiry => exact .of_next h (.expireClearStore s)
  | readSlot p n => exact .of_next h (.reading s p _ _ (readSlotRule_fst n))
  | readStream p n => exact .of_next h (.reading s p _ _ (readStreamRule_fst n))
  | declare p a b c => exact .of_next h (.request s p _ _ fun t _ => .declareRule p a b c t)
  | readDeclaration p n => exact .of_next h (.reading s p _ _ (readDeclarationRule_fst n))
  | setFlag p n => exact .of_next h (.request s p _ _ fun t _ => .flagRule p n true t)
  | clearFlag p n => exact .of_next h (.request s p _ _ fun t _ => .flagRule p n false t)
  | readFlags p => exact .of_next h (.reading s p _ _ fun _ => rfl)
  | readFrame p n => exact .of_next h (.reading s p _ _ (readFrameRule_fst n))
  | confirmGrant p e i =>
    exact .of_next h (.request s p _ _ fun t _ => .judgeEntry t p e _ fun k hk => .confirmRule i t k hk)
  | refuseGrant p e i a =>
    exact .of_next h (.request s p _ _ fun t _ => .judgeEntry t p e _ fun k hk => .refuseGrantRule i a t k hk)
  | reportTrip p e => exact .of_next h (.request s p _ _ fun t _ => .judgeEntry t p e _ fun k hk => .tripRule t k hk)
  | reportReady p e n =>
    exact .of_next h (.request s p _ _ fun t _ => .judgeEntry t p e _ fun k hk => .settling t k _ _ hk)
  | park p e => exact .of_next h (.request s p _ _ fun t _ => .judgeEntry t p e _ fun k _ => .parkRule true t k)
  | unpark p e => exact .of_next h (.request s p _ _ fun t _ => .judgeEntry t p e _ fun k _ => .parkRule false t k)
  | setLimits p e a b c d =>
    exact .of_next h (.request s p _ _ fun t _ => .judgeEntry t p e _ fun k _ => .setLimitsRule ⟨a, b, c, d⟩ t k)
  | readConsumer p n => exact .of_next h (.reading s p _ _ (readConsumerRule_fst n))
  | nominate p i k => exact .of_next h (.request s p _ _ fun t _ => .nominateRule p i k t)
  | cancelNomination p i => exact .of_next h (.request s p _ _ fun t _ => .cancelRule p i t)
  | readInterval p => exact .of_next h (.reading s p _ _ fun _ => rfl)
  | stageTariff p c e b q =>
    exact .of_next h (.request s p _ _ fun t _ => .judgePriced t p c _ _ fun k => .stageRule e b q t k)
  | consentTariff p c i =>
    exact .of_next h (.request s p _ _ fun t _ => .judgePriced t p c _ _ fun k => .consentRule i t k)
  | withdrawTariff p c =>
    exact .of_next h (.request s p _ _ fun t _ => .judgePriced t p c _ _ fun k => .withdrawRule t k)
  | readTariff p a b => exact .of_next h (.reading s p _ _ (readTariffRule_fst p a b))
  | readAccount p a b c => exact .of_next h (.reading s p _ _ (readAccountRule_fst p a b c))
  | readRecord p a b c => exact .of_next h (.request s p _ _ fun t _ => .readRecordRule p a b c t)
  | releaseRecord p a b => exact .of_next h (.request s p _ _ fun t _ => .releaseRule p a b t)
  | readStore p n => exact .of_next h (.reading s p _ _ (readStoreRule_fst n))
  | readTime p => exact .of_next h (.reading s p _ _ fun _ => rfl)
  | adjustTime p n => exact .of_next h (.request s p _ _ fun t _ => .adjustRule p n t)
  | badFrame p f => exact .of_next h (.takeFrame s p _ fun t => .of_eq (badFrameJudge_fst f t))
  | incompleteFrame p => exact .of_next h (.ite (fun _ => .mapPort s p _ fun _ h => h) fun _ => .refl s)
  | characterReceived d q m =>
    exact .of_next h (.ite (fun _ => (Keeps.linkCharacter s _).trans (.assembleCharacter ..)) fun _ => .refl s)
  | linkBreak => exact .of_next h (.ite (fun _ => .breakDetected s) fun _ => .refl s)
  | readingApplied =>
    refine .of_next h (.ite (fun _ => ?_) fun _ => .refl s)
    split
    case h_1 => exact .refl s
    case h_2 r rest hq =>
      refine (Keeps.mapSensor s _ (fun hlen => ?_) fun _ h => h).trans (.applyReading ..)
      rw [hq] at hlen; exact (Nat.le_succ _).trans hlen
  | pulseEdge pin ms => exact .of_next h ((Keeps.passMs s ms).trans (.ite (fun _ => .mapInput ..) fun _ => .refl _))
  | pulseFall pin ms =>
    refine .of_next h ((Keeps.passMs s ms).trans (.ite (fun _ => ?_) fun _ => .refl _))
    exact .ite (fun _ => .mapInput ..) fun _ => .mapInput ..
  | pulseQualified pin ms =>
    exact .of_next h ((Keeps.passMs s ms).trans (.ite (fun _ => .mapInput ..) fun _ => .refl _))
  | tickBoundary =>
    refine .of_next h (.ite (fun _ => .ite (fun _ => ?_) fun _ => .refl s) fun _ => ?_)
    · exact (Keeps.completeSecond s).trans (.raiseDomain _)
    · split
      · exact .completeSecond s
      · exact (Keeps.completeSecond s).trans (.startingBoundary _)
      · exact .secondPasses s
      · exact .secondPasses s
  | slotAgeExpiry i => exact .of_next h (.ite (fun _ => .slotAgeStep s i) fun _ => .refl s)
  | declarationStale d => exact .of_next h (.ite (fun _ => .declAgeStep s d) fun _ => .refl s)
  | declarationFallback d => exact .of_next h (.ite (fun _ => .declAgeStep s d) fun _ => .refl s)
  | firstExpiry e =>
    exact .of_next h (.ite (fun hd => .firstExpiry s e ((s.expiryDue_iff e 0).mp hd).2.1) fun _ => .refl s)
  | secondExpiry e =>
    exact .of_next h (.ite (fun hd => .secondExpiry s e ((s.expiryDue_iff e 1).mp hd).2.1) fun _ => .refl s)
  | tickIntegration => exact .of_next h (.takeTick s)
  | checkWindowEnd i => exact .of_next h (.ite (fun _ => .windowEnd s i) fun _ => .refl s)
  | frameCompletion => exact .of_next h (.takeFrameCompletion s)
  | periodicCheckpoint => exact .of_next h (.takeCheckpoint s)
  | arrayServe => exact .of_next h (.arrayServe s)
  | recordProgramDone =>
    refine .of_next h ?_
    split
    · exact .recordDone ..
    · exact .refl s
  | recordUnitFail unit left tag =>
    refine .of_next h ?_
    split
    · exact .ite (fun _ => .recordFails ..) fun _ => .refl s
    · exact .refl s
  | markProgramDone mark =>
    refine .of_next h ?_
    split
    · exact .ite (fun _ => (Keeps.setStore s _ (.idle s.store)).trans (.respond ..)) fun _ => .markDone ..
    · exact .refl s
  | recordReadDone =>
    refine .of_next h ?_
    split
    · have hidle := Keeps.setStore s _ (Store.Within.idle s.store)
      exact .ite (fun _ => hidle.trans (.respond ..)) fun _ => hidle.trans (.respond ..)
    · exact .refl s
  | sectorEraseDone left =>
    refine .of_next h ?_
    split
    · exact .eraseDone ..
    · exact .refl s
  | configProgramDone failed =>
    refine .of_next h ?_
    split
    · split
      · exact .configDone ..
      · exact .ite (fun _ => .configFails ..) fun _ => .refl s
    · exact .refl s
  | checkpointProgramDone failed =>
    refine .of_next h ?_
    split
    case h_1 c n hc =>
      refine .mapStore s _ ?_
      split
      · exact Store.ckptDone_within _ c n hc
      · exact Store.ckptFails_within ..
    case h_2 => exact .refl s
  | pfw torn => exact .of_next h (.warn s torn)
  | resetAssert => exact .of_next h {}
  | resetRelease n torn =>
    have hboard : Keeps s { s with board := { s.board with resetLow := false } } := {}
    refine .of_next h (hboard.trans (.ite (fun _ => ?_) fun _ => .refl _))
    exact (Keeps.mapStore _ _ (Store.tear_within _ torn)).trans (.restart ..)
  | powerReturn =>
    refine .of_next h (.ite (fun _ => .refl s) fun _ => ?_)
    exact Keeps.trans (t := { s with board := { s.board with mainOn := true } }) {} (.restart ..)
  | mainSupplyLoss torn =>
    refine .of_next h (.ite (fun _ => ?_) fun _ => .refl s)
    exact (Keeps.setStore s _ (Store.tear_within _ torn)).trans {}
  | backupSupplyFail => exact .of_next h (.ite (fun _ => .refl s) fun _ => .setClock ..)
  | departure =>
    have hblank : ∀ r, Keeps s (s.departBlank r) := fun r =>
      Keeps.trans (t := { s with
        station := { s.station with state := .blank, edit := some Image.factory }
        clock := { s.clock with time := 0, domain := 0, valid := false, lastRestart := some (r.summary 0) }
        startup := none }) {} (.deliver ..)
    have hoperating : ∀ r n, Keeps s (s.departOperating r n) := fun r n =>
      Keeps.trans (t := { s with
        station := { s.station with state := .operating }
        clock := { s.clock with
          frameTimer := some (0, s.img.frameLength), ckptTicks := 0, lastRestart := some (r.summary n) }
        startup := none }) {} (.deliver ..)
    refine .of_next h (.ite (fun _ => ?_) fun _ => .refl s)
    split
    · refine .ite (fun _ => hblank _) fun _ => ?_
      split
      · exact hoperating ..
      · exact .refl s
    · exact .refl s
  | lineReturnsToMark => exact .of_next h (.mapSensor s _ id fun _ h => h)

/-- Every step keeps the seven forms: it runs the command at the front of the queue, or a millisecond passes. -/
theorem step_keeps {s t : State} (h : step s = .next t) : Keeps s t := by
  unfold step at h
  split at h
  case h_1 => exact .of_next h (.passMs s 1)
  case h_2 c rest _ => exact Keeps.trans (t := { s with pending := rest }) {} (exec_keeps h)

/-- Settles O55: `Keeps` holds of every step, and the queues are one of its respects. -/
theorem everyStepKeepsTheNoticeQueues : Obligations.EveryStepKeepsTheNoticeQueues :=
  fun _ _ hs h => (step_keeps h).ports hs

/-- Settles O56, from two respects of `Keeps`. -/
theorem everyStepKeepsTheConsumers : Obligations.EveryStepKeepsTheConsumers :=
  ⟨fun _ _ hs h => (step_keeps h).consumers hs, fun _ _ hs h => (step_keeps h).grants hs⟩

/-- Settles O57, from two respects of `Keeps`. -/
theorem everyStepKeepsTheFigures : Obligations.EveryStepKeepsTheFigures :=
  ⟨fun _ _ hs h => (step_keeps h).figures hs, fun _ _ hs h => (step_keeps h).sensor hs⟩

/-- Settles O58: the tracker of the state and those of the checkpoints are one respect of `Keeps`. -/
theorem everyStepKeepsTheNominations : Obligations.EveryStepKeepsTheNominations :=
  fun _ _ hs h => (step_keeps h).nominations hs

/-- Settles O59: no operation leaves the canonical form, the last respect of `Keeps`. -/
theorem everyStepKeepsTheArray : Obligations.EveryStepKeepsTheArray :=
  fun _ _ hs h => (step_keeps h).array hs

end Sys2Proof.Machine
end

section

-- One thread per proof would pass the memory limit of the build: each has a stack of its own.
set_option Elab.async false

namespace Sys2Proof.Machine

/-! ### What leaves the station in its state

`Calm s t` says that the station is in the same state, that a restart is under way in `t` exactly when it is in `s`, and
that a commit stands in `t` only in BLANK and RECONFIGURING when that is so of `s`. All operations are calm but the few
that R6 names. -/

/-- A commit stands in BLANK and RECONFIGURING alone (R16). -/
def Station.CommitHeld (x : Station) : Prop := x.commit.isSome = true → x.state = .blank ∨ x.state = .reconfiguring

theorem stationWf_iff (s : State) :
    StationWf s ↔ (s.startup.isSome = true ↔ s.station.state = .starting) ∧ s.station.CommitHeld := Iff.rfl

structure Calm (s t : State) : Prop where
  state : t.station.state = s.station.state := by exact rfl
  startup : t.startup.isSome = s.startup.isSome := by exact rfl
  commit : s.station.CommitHeld → t.station.CommitHeld := by exact fun h => h

namespace Calm

variable {s t u : State}

theorem refl (s : State) : Calm s s := {}

theorem trans (h : Calm s t) (k : Calm t u) : Calm s u where
  state := k.state.trans h.state
  startup := k.startup.trans h.startup
  commit := k.commit ∘ h.commit

theorem of_eq (h : t = s) : Calm s t := h ▸ refl s

/-- An operation that touches neither the station nor the restart. -/
theorem of_same (h : t.station = s.station) (k : t.startup = s.startup) : Calm s t where
  state := by rw [h]
  startup := by rw [k]
  commit := fun hs => by rw [h]; exact hs

theorem foldl {α : Type} (f : State → α → State) (h : ∀ (t : State) (a : α), Calm t (f t a)) (l : List α) (s : State) :
    Calm s (l.foldl f s) :=
  List.foldlRecOn l f (refl s) fun t ht a _ => ht.trans (h t a)

theorem ite {p : Prop} [Decidable p] (ht : p → Calm s t) (hu : ¬p → Calm s u) : Calm s (if p then t else u) := by
  split
  case isTrue h => exact ht h
  case isFalse h => exact hu h

theorem wf (h : Calm s t) (hs : StationWf s) : StationWf t := by
  obtain ⟨hr, hc⟩ := (stationWf_iff s).mp hs
  exact (stationWf_iff t).mpr ⟨by rw [h.startup, h.state]; exact hr, h.commit hc⟩

/-! ### Notices and responses -/

theorem deliver (s : State) (rs : List Party) (n : Notice) : Calm s (s.deliver rs n) := {}

theorem respond (s : State) (p : Party) (r : Result) (data : List Byte) : Calm s (s.respond p r data) := {}

theorem post (s : State) (rs : List Party) (k : NoticeKind) (i : Nat) (v : BitVec 32) (m b : Nat) :
    Calm s (s.post rs k i v m b) := of_same (by simp) (by simp)

theorem postDefect (s : State) (a b : Nat) : Calm s (s.postDefect a b) := post ..

theorem askFlag (s : State) (f : Fin 8) (v : Bool) : Calm s (s.askFlag f v) := of_same (by simp) (by simp)

/-! ### The blocks -/

theorem linkCharacter (s : State) (v : Bool) : Calm s (s.linkCharacter v) := by
  unfold State.linkCharacter
  exact ite (fun _ => of_same (by simp) (by simp)) fun _ => refl s

theorem offerReading (s : State) (r : Reading) : Calm s (s.offerReading r) := by
  unfold State.offerReading
  exact ite (fun _ => {}) fun _ => ite (fun _ => trans (t := s.mapSensor _) {} (post ..)) fun _ => refl s

theorem assembleCharacter (s : State) (c : Byte) (v : Bool) : Calm s (s.assembleCharacter c v) := by
  unfold State.assembleCharacter
  dsimp only
  split
  · exact {}
  · split
    · exact {}
    · exact trans (t := s.mapSensor _) {} (offerReading ..)

theorem breakDetected (s : State) : Calm s s.breakDetected := by
  unfold State.breakDetected
  dsimp only
  exact ite (fun _ => of_same (by simp) (by simp)) fun _ => {}

theorem substituteSlot (s : State) (i : Fin 24) (c : Cause) : Calm s (s.substituteSlot i c) :=
  trans (t := s.setSlot i _) {} (post ..)

theorem applyReading (s : State) (r : Reading) : Calm s (s.applyReading r) := by
  unfold State.applyReading
  dsimp only
  split
  · exact ite (fun _ => trans (t := s.setSlot _ _) {} (post ..)) fun _ => {}
  · exact ite (fun _ => {}) fun _ => substituteSlot ..

theorem slotAgeStep (s : State) (i : Fin 24) : Calm s (s.slotAgeStep i) := by
  unfold State.slotAgeStep
  dsimp only
  split_ifs
  · exact {}
  · exact trans (t := s.setSlot i _) {} (substituteSlot ..)
  · exact {}
  · exact refl s

theorem declAgeStep (s : State) (d : Fin 13) : Calm s (s.declAgeStep d) := by
  unfold State.declAgeStep
  dsimp only
  split
  · split
    · exact {}
    · split
      · exact {}
      · exact trans (t := s.setDecl d _) {} (post ..)
  · exact refl s

theorem passMs (s : State) (ms : Nat) : Calm s (s.passMs ms) := by
  obtain ⟨m, p, x, e, h⟩ := s.passMs_frame ms
  rw [h]; exact {}

theorem windowEnd (s : State) (i : Fin 8) : Calm s (s.windowEnd i) := by
  obtain ⟨p, w, h⟩ := s.windowEnd_frame i
  rw [h]; exact {}

theorem endWindows (s : State) : Calm s s.endWindows := foldl _ windowEnd _ s

theorem integrateStreams (s : State) (label : Nat) : Calm s (s.integrateStreams label) :=
  trans (t := { s with
    fiscal := ⟨s.integratedStreams label, none⟩
    pulses := ⟨s.pulses.inputs.map fun x => { x with count := 0 }, s.addedWindows⟩ }) {} (foldl _ (fun _ _ => post ..) _ _)

theorem countFrame (s : State) (label : Nat) : Calm s (s.countFrame label) := by
  unfold State.countFrame
  split
  · exact refl s
  · split
    · exact refl s
    · exact ite (fun _ => {}) fun _ => {}

theorem creditDelivery (s : State) (n : Nat) : Calm s (s.creditDelivery n) := by
  obtain ⟨b, h⟩ := s.creditDelivery_frame n
  rw [h]; exact {}

theorem handAccount (s : State) (c : Fin 4) (a : Account) : Calm s (s.handAccount c a) := {}

theorem takeBoundaries (s : State) (l : Nat) : Calm s (s.takeBoundaries l) := by
  obtain ⟨p, b, st, h, -, -⟩ := OnlyBilled.takeBoundaries s l
  rw [h]; exact {}

theorem closeInterval (s : State) : Calm s s.closeInterval := by
  obtain ⟨p, b, h⟩ := s.closeInterval_frame
  rw [h]; exact {}

theorem handOff (s : State) (label carry : Nat) : Calm s (s.handOff label carry) := by
  obtain ⟨p, x, k, b, h⟩ := s.handOff_frame label carry
  rw [h]; exact {}

theorem firstExpiry (s : State) (e : Fin 12) : Calm s (s.firstExpiry e) := by
  rw [State.firstExpiry_eq_postGrant]
  exact trans (t := s.setConsumer e _) {} (post ..)

theorem secondExpiry (s : State) (e : Fin 12) : Calm s (s.secondExpiry e) :=
  trans (t := s.setConsumer e _) {} (post ..)

theorem runFrame (s : State) (label : Nat) : Calm s (s.runFrame label) := by
  have hflare : ∀ (t : State) (n : Nat), (t.setFlare n).startup = t.startup := fun t n => by
    unfold State.setFlare; dsimp only; split <;> simp
  have hband : ∀ (t : State) (b : HolderBand) (l : Int), (t.judgeBand b l).startup = t.startup := fun t b l => by
    unfold State.judgeBand; dsimp only; split <;> simp
  have hflags : ∀ (t : State) (b : HolderBand), (t.holderFlags b).startup = t.startup := fun t b => by
    unfold State.holderFlags; cases b <;> simp
  unfold State.runFrame
  extract_lets number f s1 s2 s3 s4
  have h4 : Calm s s4 := of_same (by simp [s4, s3, s2, s1]) (by simp [s4, s3, s2, s1, hflare, hband, hflags])
  obtain ⟨p, x, h⟩ := s4.handOver_frame f
  exact h4.trans (by rw [h]; exact {})

theorem takeFrameCompletion (s : State) : Calm s s.takeFrameCompletion := by
  unfold State.takeFrameCompletion
  split
  · exact trans (t := s.mapAlloc fun a => { a with frameDue := none }) {} (runFrame ..)
  · exact refl s

theorem beginCheckpoint (s : State) (b : Bool) : Calm s (s.beginCheckpoint b) := by
  rcases s.beginCheckpoint_cases b with ⟨-, h⟩ | ⟨-, h⟩ <;> rw [h] <;> exact {}

theorem gatherWaiting (s : State) : Calm s s.gatherWaiting := by
  unfold State.gatherWaiting
  split
  · exact {}
  · exact refl s

theorem takeCheckpoint (s : State) : Calm s s.takeCheckpoint := by
  unfold State.takeCheckpoint
  refine ite (fun _ => ite (fun _ => {}) fun _ => ?_) fun _ => refl s
  exact trans (t := { s with clock := _ }) {} (beginCheckpoint ..)

/-! ### The array -/

theorem serve (s : State) (op : ArrayOp) : Calm s (s.serve op) := by
  unfold State.serve
  split
  · split
    · exact {}
    · exact refl s
  · exact {}
  · exact {}
  · split
    · exact {}
    · exact refl s
    · exact postDefect ..
  · exact {}

theorem arrayServe (s : State) : Calm s s.arrayServe := by
  unfold State.arrayServe
  split
  · exact refl s
  · split
    · exact trans (t := s.mapStore _) {} (serve ..)
    · unfold State.beginErase
      split
      · exact refl s
      · split
        · exact {}
        · split
          · exact {}
          · exact refl s

theorem recordDone (s : State) (r : PeriodRecord) (a b : Nat) : Calm s (s.recordDone r a b) :=
  of_same (by simp [State.recordDone]) (by simp [State.recordDone])

theorem recordFails (s : State) (r : PeriodRecord) (a b unit : Nat) (left : List Byte) (tag : Byte) :
    Calm s (s.recordFails r a b unit left tag) := by
  unfold State.recordFails
  extract_lets addr cells st1 retires s1
  have h1 : Calm s s1 := by
    simp only [s1]
    exact ite (fun _ => trans (t := { s with store := _ }) {} (postDefect ..)) fun _ => {}
  exact ite (fun _ => h1) fun _ => h1.trans {}

theorem markDone (s : State) (p : Party) (a b : Nat) (v : Bool) (c d : Nat) (mark : Byte) :
    Calm s (s.markDone p a b v c d mark) := by
  unfold State.markDone
  dsimp only
  split <;> exact {}

theorem ckptErased (s : State) (n : Nat) (ok : Bool) : Calm s (s.ckptErased n ok) := by
  unfold State.ckptErased
  dsimp only
  split
  · exact {}
  · exact of_same (by simp [State.postDefect]) (by simp [State.postDefect])

theorem recordErased (s : State) (n : Nat) (ok : Bool) : Calm s (s.recordErased n ok) := by
  unfold State.recordErased
  dsimp only
  exact of_same (by split <;> simp [State.postDefect]) (by split <;> simp [State.postDefect])

theorem warn (s : State) (torn : Torn) : Calm s (s.warn torn) := by
  unfold State.warn
  dsimp only
  split
  · exact refl s
  · split
    · exact {}
    · split
      · exact {}
      · exact trans (t := { s with store := _, clock := _ }) {} (beginCheckpoint ..)

/-! ### The second -/

theorem catchUpSteps (n : Nat) (s : State) (a : Nat) : Calm s (s.catchUpSteps a n).1 := by
  induction n generalizing s a with
  | zero => exact refl s
  | succ n ih =>
    rw [State.catchUpSteps]
    refine Calm.trans ?_ (ih ..)
    exact ((trans (t := s.addOutage _) {} (closeInterval _)).trans (u := State.markOutage _) {}).trans (takeBoundaries ..)

theorem catchUp (s : State) (a b : Nat) (w : Bool) : Calm s (s.catchUp a b w) := by
  unfold State.catchUp
  extract_lets s1 r
  have h1 : Calm s s1 := ite (fun _ => refl s) fun _ => {}
  exact ((h1.trans (u := s1.markOutage) {}).trans (catchUpSteps ..)).trans {}

theorem fixResume (s : State) (n : Nat) : Calm s (s.fixResume n) := by
  unfold State.fixResume
  split
  · exact refl s
  · rename_i r hr
    refine trans (t := { s with
      clock := { s.clock with time := n, lastLabel := n }, startup := some { r with resume := some n } })
      { startup := by rw [hr]; rfl } (catchUp ..)

theorem settleExpiry (s : State) (e : Fin 12) : Calm s (s.settleExpiry e) := by
  unfold State.settleExpiry
  exact ite (fun _ => firstExpiry ..) fun _ => ite (fun _ => secondExpiry ..) fun _ => refl s

theorem expireRecommission (s : State) : Calm s s.expireRecommission := ite (fun _ => {}) fun _ => refl s

theorem expireClearStore (s : State) : Calm s s.expireClearStore := ite (fun _ => {}) fun _ => refl s

theorem completeSecond (s : State) : Calm s s.completeSecond := (passMs ..).trans {}

theorem startingBoundary (s : State) : Calm s s.startingBoundary := by
  unfold State.startingBoundary
  split
  · exact refl s
  · refine ite (fun _ => ite (fun _ => {}) fun _ => refl s) fun _ => ite (fun _ => ?_) fun _ => {}
    exact trans (t := s.raiseDomain) {} (fixResume ..)

/-! ### The rules of the requests -/

theorem writeConfigRule (a b : Nat) (v : Int) (s : State) : Calm s (writeConfigRule a b v s).1 := by
  unfold Machine.writeConfigRule
  split
  · exact refl s
  · split
    · exact refl s
    · split_ifs
      · exact refl s
      · exact refl s
      · exact {}

theorem failCommit (s : State) : Calm s s.failCommit := by
  rcases s.failCommit_cases with ⟨-, h⟩ | ⟨c, -, h⟩ <;> rw [h]
  · exact refl s
  · exact { commit := fun _ => nofun }

/-- The phase of a commit changes where one may stand. -/
theorem setCommit (s : State) (c : Option Commit)
    (h : s.station.CommitHeld → s.station.state = .blank ∨ s.station.state = .reconfiguring) :
    Calm s (s.mapStation fun x => { x with commit := c }) where
  commit := fun hs _ => h hs

theorem queueConfig (s : State) (p : Party) (n : Nat)
    (h : s.station.CommitHeld → s.station.state = .blank ∨ s.station.state = .reconfiguring) :
    Calm s (s.queueConfig p n) := (setCommit s _ h).trans {}

theorem beginCommit (s : State) (p : Party) (h : s.station.state = .blank ∨ s.station.state = .reconfiguring) :
    Calm s (s.beginCommit p) :=
  ite (fun _ => queueConfig s p _ fun _ => h) fun _ => (setCommit s _ fun _ => h).trans {}

/-- APPROVE begins a commit in BLANK and RECONFIGURING alone (R15). -/
theorem approveRule (p : Party) (w : Nat) (s : State) (hr : s.stateRefuses .approve = false) :
    Calm s (approveRule p w s).1 := by
  unfold Machine.approveRule
  dsimp only
  split
  · exact refl s
  rename_i hop
  have hstate : s.station.state = .blank ∨ s.station.state = .reconfiguring := by
    unfold State.stateRefuses at hr
    cases h : s.station.state <;> simp_all
  split
  · exact refl s
  · split
    · exact refl s
    · split_ifs
      · exact refl s
      · exact trans (t := s.mapStation _) {} (beginCommit _ p hstate)
      · exact {}

theorem clearStoreRule (p : Party) (s : State) : Calm s (clearStoreRule p s).1 := by
  unfold Machine.clearStoreRule
  dsimp only
  split
  · exact refl s
  · exact ite (fun _ => {}) fun _ => {}

theorem judgeEntry (s : State) (p : Party) (entry : Nat) (rule : Fin 12 → State × Reply)
    (h : ∀ e, Calm s (rule e).1) : Calm s (judgeEntry s p entry rule).1 := by
  unfold Machine.judgeEntry
  split
  · exact refl s
  · split
    · exact refl s
    · split
      · exact h _
      · exact refl s

theorem confirmRule (id : Nat) (s : State) (e : Fin 12) : Calm s (confirmRule id s e).1 := by
  unfold Machine.confirmRule
  dsimp only
  split
  · split <;> exact {}
  · split <;> exact {}
  · exact refl s

theorem refuseGrantRule (id a : Nat) (s : State) (e : Fin 12) : Calm s (refuseGrantRule id a s e).1 := by
  unfold Machine.refuseGrantRule
  dsimp only
  split
  · split <;> exact {}
  · exact refl s

theorem tripRule (s : State) (e : Fin 12) : Calm s (tripRule s e).1 := by
  unfold Machine.tripRule
  dsimp only
  split <;> exact {}

theorem setLimitsRule (l : Limits) (s : State) (e : Fin 12) : Calm s (setLimitsRule l s e).1 := by
  unfold Machine.setLimitsRule
  split <;> exact {}

theorem nominateRule (p : Party) (i k : Nat) (s : State) : Calm s (nominateRule p i k s).1 := by
  unfold Machine.nominateRule
  rcases judgeNomination_cases s p i k _ with ⟨r, h⟩ | ⟨-, -, h⟩ <;> rw [h]
  · exact refl s
  · exact {}

theorem cancelRule (p : Party) (i : Nat) (s : State) : Calm s (cancelRule p i s).1 := by
  unfold Machine.cancelRule
  rcases judgeNomination_cases s p i 0 _ with ⟨r, h⟩ | ⟨-, -, h⟩ <;> rw [h]
  · exact refl s
  · exact {}

theorem judgePriced (s : State) (p : Party) (c : Nat) (who : Fin 4 → Party) (rule : Fin 4 → State × Reply)
    (h : ∀ c, Calm s (rule c).1) : Calm s (judgePriced s p c who rule).1 := by
  unfold Machine.judgePriced
  split
  · exact refl s
  · split
    · exact refl s
    · split
      · exact refl s
      · exact h _

theorem stageRule (e : Nat) (b : List Band) (q : Nat) (s : State) (c : Fin 4) : Calm s (stageRule e b q s c).1 := by
  unfold Machine.stageRule
  dsimp only
  split
  · exact refl s
  · split
    · exact refl s
    · split_ifs
      · exact refl s
      · exact refl s
      · exact of_same (by simp) (by simp)

theorem consentRule (n : Nat) (s : State) (c : Fin 4) : Calm s (consentRule n s c).1 := by
  unfold Machine.consentRule
  split
  · exact refl s
  · split <;> exact {}

theorem withdrawRule (s : State) (c : Fin 4) : Calm s (withdrawRule s c).1 := by
  unfold Machine.withdrawRule
  split
  · exact refl s
  · split
    · exact refl s
    · exact of_same (by simp) (by simp)

theorem judgeStored (s : State) (a b : Nat) (rule : State × Reply) (h : Calm s rule.1) :
    Calm s (judgeStored s a b rule).1 := by
  unfold Machine.judgeStored
  split
  · exact refl s
  · split
    · exact refl s
    · exact refl s
    · exact refl s
    · exact h

theorem releaseRule (p : Party) (a b : Nat) (s : State) : Calm s (releaseRule p a b s).1 := by
  refine judgeStored s a b _ ?_
  split
  · exact refl s
  · dsimp only
    split
    · exact refl s
    · split_ifs <;> exact {}

theorem readRecordRule (p : Party) (a b part : Nat) (s : State) : Calm s (readRecordRule p a b part s).1 := by
  refine judgeStored s a b _ ?_
  split
  · exact refl s
  · split <;> exact {}

theorem adjustRule (p : Party) (n : Int) (s : State) : Calm s (adjustRule p n s).1 := by
  unfold Machine.adjustRule
  split
  · exact refl s
  · split
    · exact {}
    · split
      · exact {}
      · exact trans (t := { s with clock := _ }) {} (post ..)

theorem setFilterRule (p : Party) (n : Nat) (s : State) : Calm s (setFilterRule p n s).1 := by
  unfold Machine.setFilterRule
  split <;> exact {}

theorem declareRule (p : Party) (a b c : Nat) (s : State) : Calm s (declareRule p a b c s).1 := by
  unfold Machine.declareRule
  split
  · exact refl s
  · split
    · exact refl s
    · split <;> exact {}

theorem flagRule (p : Party) (n : Nat) (v : Bool) (s : State) : Calm s (flagRule p n v s).1 := by
  unfold Machine.flagRule
  split
  · exact refl s
  · split
    · exact refl s
    · split
      · exact refl s
      · exact askFlag ..

end Calm

end Sys2Proof.Machine
end

section

-- One thread per proof would pass the memory limit of the build: each has a stack of its own.
set_option Elab.async false

namespace Sys2Proof.Machine

/-! ### The moves between station states -/

/-- The end of a commit (R16, R17, R18). -/
theorem State.enterOperating_eq {s : State} {c : Commit} (h : s.station.commit = some c) :
    s.enterOperating.station = s.station.committed s.committing ∧ s.enterOperating.startup = s.startup := by
  obtain ⟨p, w, hw⟩ := s.endWindows_frame
  unfold State.enterOperating
  rw [h]
  dsimp only
  split
  · exact ⟨rfl, rfl⟩
  · rw [hw]; exact ⟨rfl, rfl⟩

/-- A commit in progress moves on to another phase. -/
theorem Calm.mapCommit (s : State) (f : Commit → Commit) :
    Calm s (s.mapStation fun x => { x with commit := x.commit.map f }) where
  commit := fun h hk => h (by simpa using hk)

theorem Calm.countTick (s : State) (label : Nat) : Calm s (s.countTick label) := {}

theorem Calm.raiseDomain (s : State) : Calm s s.raiseDomain := {}

theorem Calm.ageAll (s : State) : Calm s s.ageAll := {}

/-- From a state in order, the command `c` moves the station as R6 allows, and leaves it in order. -/
def Moves (c : Instr) (s t : State) : Prop :=
  StationWf s → StationMove c s.station.state t.station.state ∧ StationWf t

namespace Moves

variable {c : Instr} {s t u : State}

theorem of_calm (h : Calm s t) : Moves c s t := fun hs => ⟨.inl h.state.symm, h.wf hs⟩

theorem refl (s : State) : Moves c s s := of_calm (.refl s)

theorem before (h : Calm s t) (k : Moves c t u) : Moves c s u := fun hs => by
  rw [← h.state]; exact k (h.wf hs)

theorem after (h : Moves c s t) (k : Calm t u) : Moves c s u := fun hs => by
  obtain ⟨hm, ht⟩ := h hs
  exact ⟨by rw [k.state]; exact hm, k.wf ht⟩

theorem ite {p : Prop} [Decidable p] (ht : p → Moves c s t) (hu : ¬p → Moves c s u) :
    Moves c s (if p then t else u) := by
  split
  case isTrue h => exact ht h
  case isFalse h => exact hu h

theorem of_next (h : (.next u : Out) = .next t) (k : Moves c s u) : Moves c s t := by
  cases h; exact k

/-! ### Requests -/

theorem finish (p : Party) (x : State × Reply) : Calm x.1 (State.finish p x) := by
  obtain ⟨t, r⟩ := x
  cases r with
  | done r data => exact .respond ..
  | waiting => exact .refl t

theorem takeFrame (s : State) (p : Party) (judge : State → State × Reply) (h : ∀ t, Moves c t (judge t).1) :
    Moves c s (s.takeFrame p judge) := by
  have hport : ∀ f, Calm s (s.mapPort p f) := fun f => {}
  unfold State.takeFrame
  refine ite (fun _ => ?_) fun _ => refl s
  split
  · exact of_calm (hport _)
  · exact before (hport _) ((h _).after (finish p _))

theorem request (s : State) (p : Party) (r : Request) (rule : State → State × Reply)
    (h : ∀ t, t.stateRefuses r = false → Moves c t (rule t).1) : Moves c s (s.request p r rule) := by
  refine takeFrame s p _ fun t => ?_
  split
  case isTrue => exact refl t
  case isFalse hr => exact h t (by simpa using hr)

theorem calmly (s : State) (p : Party) (r : Request) (rule : State → State × Reply) (h : ∀ t, Calm t (rule t).1) :
    Moves c s (s.request p r rule) :=
  request s p r rule fun t _ => of_calm (h t)

theorem reading (s : State) (p : Party) (r : Request) (rule : State → State × Reply) (h : ∀ t, (rule t).1 = t) :
    Moves c s (s.request p r rule) :=
  calmly s p r rule fun t => .of_eq (h t)

/-! ### The operations that move the station -/

/-- R19: the third RECOMMISSION enters RECONFIGURING from OPERATING. -/
theorem recommissionRule (p : Party) (s : State) : Moves (.recommission p) s (recommissionRule p s).1 := by
  have h : Calm s (s.mapStation fun x => { x with recommission := x.recommission.mark p }) := {}
  unfold Machine.recommissionRule
  dsimp only
  split
  case isTrue => exact refl s
  case isFalse hop =>
    have hop : s.station.state = .operating := by simpa using hop
    dsimp only
    refine ite (fun _ hs => ?_) fun _ => of_calm h
    obtain ⟨hr, hc⟩ := (stationWf_iff s).mp hs
    refine ⟨.inr (.inr (.inr (.inl ⟨hop, rfl, p, rfl⟩))), (stationWf_iff _).mpr ⟨?_, fun _ => .inr rfl⟩⟩
    simpa [State.enterReconfiguring, hop] using hr

/-- The commands that can end a commit (R16, R41). -/
def EndsCommit (c : Instr) : Prop := c = .tickIntegration ∨ c = .tickBoundary ∨ ∃ left, c = .sectorEraseDone left

/-- R16: a commit stands in BLANK or RECONFIGURING, and its end enters OPERATING. -/
theorem enterOperating (hc : EndsCommit c) (s : State) : Moves c s s.enterOperating := by
  intro hs
  cases hk : s.station.commit with
  | none =>
    have h : s.enterOperating = s := by rw [State.enterOperating, hk]
    rw [h]; exact refl s hs
  | some k =>
    obtain ⟨hr, hheld⟩ := (stationWf_iff s).mp hs
    have hstate := hheld (by rw [hk]; rfl)
    obtain ⟨hst, hsu⟩ := State.enterOperating_eq hk
    refine ⟨.inr (.inr (.inr (.inr ⟨hstate, by rw [hst]; rfl, hc⟩))), (stationWf_iff _).mpr ⟨?_, ?_⟩⟩
    · rw [hsu, hr, hst]
      rcases hstate with h | h <;> simp [h, Station.committed]
    · rw [hst]; exact nofun

theorem endCommit (hc : EndsCommit c) (s : State) : Moves c s s.endCommit := by
  exact ite (fun _ => of_calm (.mapCommit s _)) fun _ => enterOperating hc s

theorem enterWaiting (hc : EndsCommit c) (s : State) : Moves c s s.enterWaiting := by
  unfold State.enterWaiting
  split
  · exact ite (fun _ => enterOperating hc s) fun _ => refl s
  · exact refl s

theorem takeTick (hc : EndsCommit c) (s : State) : Moves c s s.takeTick := by
  unfold State.takeTick
  refine ite (fun _ => ?_) fun _ => refl s
  split
  case h_1 label _ =>
    have hoff : ∀ t : State, Calm t (t.handOffTick label) := fun t =>
      ((Calm.creditDelivery t _).trans (.handOff ..)).trans (.takeBoundaries ..)
    have hcount := ((Calm.integrateStreams s label).trans (hoff _)).trans (.countFrame _ label)
    exact before ((hcount.trans (.countTick _ label)).trans (.gatherWaiting _)) (enterWaiting hc _)
  case h_2 => exact refl s

theorem settleDue (s : State) : Moves .tickBoundary s s.settleDue := by
  unfold State.settleDue
  extract_lets s1 s2 s3 s4
  have h3 : Calm s s3 := ((Calm.foldl _ .slotAgeStep _ s).trans (.foldl _ .declAgeStep _ s1)).trans
    (.foldl _ .settleExpiry _ s2)
  have h4 : Moves .tickBoundary s s4 := before ((h3.trans (.expireRecommission s3)).trans (.expireClearStore _))
    (takeTick (.inr (.inl rfl)) _)
  exact h4.after (((Calm.endWindows s4).trans (.takeFrameCompletion _)).trans (.takeCheckpoint _))

theorem secondPasses (s : State) : Moves .tickBoundary s s.settleDue.completeSecond.raiseDomain.ageAll :=
  (((settleDue s).after (.completeSecond _)).after (.raiseDomain _)).after (.ageAll _)

/-- The erase of a configuration sector ends a commit, or carries it on (R16, R167). -/
theorem configErased (hc : EndsCommit c) (s : State) (n : Nat) (ok : Bool) : Moves c s (s.configErased n ok) := by
  unfold State.configErased
  extract_lets s1
  have h1 : Calm s s1 := .ite (fun _ => .refl s) fun _ => .postDefect ..
  have hst : s1.station = s.station := by simp only [s1]; split <;> simp [State.postDefect]
  split
  case h_1 => exact of_calm h1
  case h_2 k hk =>
    refine ite (fun _ => ite (fun _ => ?_) fun _ => ?_) fun _ => ite (fun _ => ?_) fun _ => of_calm h1
    · exact of_calm (h1.trans (.queueConfig s1 _ _ fun hheld => hheld (by rw [hst, hk]; rfl)))
    · exact of_calm (h1.trans (.failCommit _))
    · exact before h1 (endCommit hc s1)

theorem eraseDone (hc : EndsCommit c) (s : State) (n : Nat) (left : List Byte) : Moves c s (s.eraseDone n left) := by
  unfold State.eraseDone
  extract_lets ok s1
  have h1 : Calm s s1 := {}
  exact ite (fun _ => before h1 (configErased hc s1 n ok)) fun _ =>
    ite (fun _ => of_calm (h1.trans (.ckptErased ..))) fun _ => of_calm (h1.trans (.recordErased ..))

/-- R183: a restart enters STARTING. -/
theorem restart (hc : c = .powerReturn ∨ ∃ n t, c = .resetRelease n t) (s : State) (cause : RestartCause) :
    Moves c s (s.restart cause) := by
  have hbegun : (s.begunRestart cause).station.state = .starting ∧ StationWf (s.begunRestart cause) :=
    ⟨rfl, (stationWf_iff _).mpr ⟨⟨fun _ => rfl, fun _ => rfl⟩, nofun⟩⟩
  have hresumed : ∀ (t : State) (f : Option FoundCheckpoint) (l : Nat), Calm t (t.resumed f l) := by
    intro t f l
    unfold State.resumed
    extract_lets backup s1 s2 s3
    have h1 : Calm t s1 := { startup := Option.isSome_map }
    have h2 : Calm t s2 := by
      simp only [s2]
      split
      · exact h1.trans {}
      · exact h1.trans {}
    have h3 : Calm t s3 := by
      refine h2.trans (.foldl _ (fun u k => ?_) _ _)
      unfold State.checkClosing
      split
      · exact .refl u
      · exact .ite (fun _ => {}) fun _ => .handAccount ..
    exact .ite (fun _ => h3) fun _ => h3.trans (.fixResume ..)
  have hcalm : Calm (s.begunRestart cause) (s.restart cause) := by
    unfold State.restart
    exact .ite (fun _ => .refl _) fun _ => hresumed ..
  exact fun _ => ⟨.inr (.inl ⟨by rw [hcalm.state]; exact hbegun.1, hc⟩), hcalm.wf hbegun.2⟩

/-- R187: a departure ends STARTING. -/
theorem departs {r : Restarting} (hr : s.startup = some r) (ht : t.station.state = .operating ∨ t.station.state = .blank)
    (hk : t.station.commit = s.station.commit) (hn : t.startup = none) : Moves .departure s t := by
  intro hs
  obtain ⟨hstart, hheld⟩ := (stationWf_iff s).mp hs
  have hst : s.station.state = .starting := hstart.mp (by rw [hr]; rfl)
  refine ⟨.inr (.inr (.inl ⟨hst, ht, rfl⟩)), (stationWf_iff t).mpr ⟨?_, fun h => ?_⟩⟩
  · rw [hn]; rcases ht with h | h <;> simp [h]
  · have := hheld (by rw [← hk]; exact h)
    simp [hst] at this

end Moves

/-- Every command moves the station as R6 allows. -/
theorem exec_moves {c : Instr} {s t : State} (h : exec c s = .next t) : Moves c s t := by
  cases c with
  | fetch p len chk n => exact .of_next h (.ite (fun _ => .of_calm {}) fun _ => .refl s)
  | takeNotice p => exact .of_next h (.calmly s p _ _ fun t => {})
  | setFilter p n => exact .of_next h (.calmly s p _ _ (.setFilterRule p n))
  | readPort p => exact .of_next h (.reading s p _ _ fun _ => rfl)
  | writeConfig p a b v => exact .of_next h (.calmly s p _ _ (.writeConfigRule a b v))
  | readConfig p a b c => exact .of_next h (.reading s p _ _ (readConfigRule_fst a b c))
  | readStation p => exact .of_next h (.reading s p _ _ fun _ => rfl)
  | approve p w => exact .of_next h (.request s p _ _ fun t ht => .of_calm (.approveRule p w t ht))
  | recommission p => exact .of_next h (.request s p _ _ fun t _ => .recommissionRule p t)
  | recommissionWindowExpiry => exact .of_next h (.of_calm (.expireRecommission s))
  | clearStore p => exact .of_next h (.calmly s p _ _ (.clearStoreRule p))
  | clearStoreWindowExpiry => exact .of_next h (.of_calm (.expireClearStore s))
  | readSlot p n => exact .of_next h (.reading s p _ _ (readSlotRule_fst n))
  | readStream p n => exact .of_next h (.reading s p _ _ (readStreamRule_fst n))
  | declare p a b c => exact .of_next h (.calmly s p _ _ (.declareRule p a b c))
  | readDeclaration p n => exact .of_next h (.reading s p _ _ (readDeclarationRule_fst n))
  | setFlag p n => exact .of_next h (.calmly s p _ _ (.flagRule p n true))
  | clearFlag p n => exact .of_next h (.calmly s p _ _ (.flagRule p n false))
  | readFlags p => exact .of_next h (.reading s p _ _ fun _ => rfl)
  | readFrame p n => exact .of_next h (.reading s p _ _ (readFrameRule_fst n))
  | confirmGrant p e i => exact .of_next h (.calmly s p _ _ fun t => .judgeEntry t p e _ (.confirmRule i t))
  | refuseGrant p e i a => exact .of_next h (.calmly s p _ _ fun t => .judgeEntry t p e _ (.refuseGrantRule i a t))
  | reportTrip p e => exact .of_next h (.calmly s p _ _ fun t => .judgeEntry t p e _ (.tripRule t))
  | reportReady p e n => exact .of_next h (.calmly s p _ _ fun t => .judgeEntry t p e _ fun _ => {})
  | park p e => exact .of_next h (.calmly s p _ _ fun t => .judgeEntry t p e _ fun _ => {})
  | unpark p e => exact .of_next h (.calmly s p _ _ fun t => .judgeEntry t p e _ fun _ => {})
  | setLimits p e a b c d =>
    exact .of_next h (.calmly s p _ _ fun t => .judgeEntry t p e _ (.setLimitsRule ⟨a, b, c, d⟩ t))
  | readConsumer p n => exact .of_next h (.reading s p _ _ (readConsumerRule_fst n))
  | nominate p i k => exact .of_next h (.calmly s p _ _ (.nominateRule p i k))
  | cancelNomination p i => exact .of_next h (.calmly s p _ _ (.cancelRule p i))
  | readInterval p => exact .of_next h (.reading s p _ _ fun _ => rfl)
  | stageTariff p c e b q => exact .of_next h (.calmly s p _ _ fun t => .judgePriced t p c _ _ (.stageRule e b q t))
  | consentTariff p c i => exact .of_next h (.calmly s p _ _ fun t => .judgePriced t p c _ _ (.consentRule i t))
  | withdrawTariff p c => exact .of_next h (.calmly s p _ _ fun t => .judgePriced t p c _ _ (.withdrawRule t))
  | readTariff p a b => exact .of_next h (.reading s p _ _ (readTariffRule_fst p a b))
  | readAccount p a b c => exact .of_next h (.reading s p _ _ (readAccountRule_fst p a b c))
  | readRecord p a b c => exact .of_next h (.calmly s p _ _ (.readRecordRule p a b c))
  | releaseRecord p a b => exact .of_next h (.calmly s p _ _ (.releaseRule p a b))
  | readStore p n => exact .of_next h (.reading s p _ _ (readStoreRule_fst n))
  | readTime p => exact .of_next h (.reading s p _ _ fun _ => rfl)
  | adjustTime p n => exact .of_next h (.calmly s p _ _ (.adjustRule p n))
  | badFrame p f => exact .of_next h (.takeFrame s p _ fun t => .of_calm (.of_eq (badFrameJudge_fst f t)))
  | incompleteFrame p => exact .of_next h (.ite (fun _ => .of_calm {}) fun _ => .refl s)
  | characterReceived d q m =>
    exact .of_next h (.ite (fun _ => .of_calm ((Calm.linkCharacter s _).trans (.assembleCharacter ..))) fun _ => .refl s)
  | linkBreak => exact .of_next h (.ite (fun _ => .of_calm (.breakDetected s)) fun _ => .refl s)
  | readingApplied =>
    refine .of_next h (.ite (fun _ => ?_) fun _ => .refl s)
    split
    · exact .refl s
    · exact .of_calm (Calm.trans (t := s.mapSensor _) {} (.applyReading ..))
  | pulseEdge pin ms =>
    exact .of_next h (.of_calm ((Calm.passMs s ms).trans (.ite (fun _ => {}) fun _ => .refl _)))
  | pulseFall pin ms =>
    exact .of_next h (.of_calm ((Calm.passMs s ms).trans (.ite (fun _ => .ite (fun _ => {}) fun _ => {}) fun _ => .refl _)))
  | pulseQualified pin ms =>
    exact .of_next h (.of_calm ((Calm.passMs s ms).trans (.ite (fun _ => {}) fun _ => .refl _)))
  | tickBoundary =>
    refine .of_next h (.ite (fun _ => .ite (fun _ => .of_calm ?_) fun _ => .refl s) fun _ => ?_)
    · exact (Calm.completeSecond s).trans {}
    · split
      · exact .of_calm (.completeSecond s)
      · exact .of_calm ((Calm.completeSecond s).trans (.startingBoundary _))
      · exact .secondPasses s
      · exact .secondPasses s
  | slotAgeExpiry i => exact .of_next h (.ite (fun _ => .of_calm (.slotAgeStep s i)) fun _ => .refl s)
  | declarationStale d => exact .of_next h (.ite (fun _ => .of_calm (.declAgeStep s d)) fun _ => .refl s)
  | declarationFallback d => exact .of_next h (.ite (fun _ => .of_calm (.declAgeStep s d)) fun _ => .refl s)
  | firstExpiry e => exact .of_next h (.ite (fun _ => .of_calm (.firstExpiry s e)) fun _ => .refl s)
  | secondExpiry e => exact .of_next h (.ite (fun _ => .of_calm (.secondExpiry s e)) fun _ => .refl s)
  | tickIntegration => exact .of_next h (.takeTick (.inl rfl) s)
  | checkWindowEnd i => exact .of_next h (.ite (fun _ => .of_calm (.windowEnd s i)) fun _ => .refl s)
  | frameCompletion => exact .of_next h (.of_calm (.takeFrameCompletion s))
  | periodicCheckpoint => exact .of_next h (.of_calm (.takeCheckpoint s))
  | arrayServe => exact .of_next h (.of_calm (.arrayServe s))
  | recordProgramDone =>
    refine .of_next h (.of_calm ?_)
    split
    · exact .recordDone ..
    · exact .refl s
  | recordUnitFail unit left tag =>
    refine .of_next h (.of_calm ?_)
    split
    · exact .ite (fun _ => .recordFails ..) fun _ => .refl s
    · exact .refl s
  | markProgramDone mark =>
    refine .of_next h (.of_calm ?_)
    split
    · exact .ite (fun _ => {}) fun _ => .markDone ..
    · exact .refl s
  | recordReadDone =>
    refine .of_next h (.of_calm ?_)
    split
    · exact .ite (fun _ => {}) fun _ => {}
    · exact .refl s
  | sectorEraseDone left =>
    refine .of_next h ?_
    split
    · exact .eraseDone (.inr (.inr ⟨left, rfl⟩)) s _ left
    · exact .refl s
  | configProgramDone failed =>
    refine .of_next h (.of_calm ?_)
    split
    · split
      · exact Calm.trans (t := { s with store := _ }) {} (.mapCommit _ _)
      · refine .ite (fun _ => ?_) fun _ => .refl s
        exact (Calm.trans (t := { s with store := _ }) {} (.postDefect ..)).trans (.failCommit _)
    · exact .refl s
  | checkpointProgramDone failed =>
    refine .of_next h (.of_calm ?_)
    split
    · exact {}
    · exact .refl s
  | pfw torn => exact .of_next h (.of_calm (.warn s torn))
  | resetAssert => exact .of_next h (.of_calm {})
  | resetRelease n torn =>
    have hboard : Calm s { s with board := { s.board with resetLow := false } } := {}
    refine .of_next h (.before hboard (.ite (fun _ => ?_) fun _ => .refl _))
    exact .before (t := State.mapStore _ _) {} (.restart (.inr ⟨n, torn, rfl⟩) _ _)
  | powerReturn =>
    refine .of_next h (.ite (fun _ => .refl s) fun _ => ?_)
    exact .before (t := { s with board := { s.board with mainOn := true } }) {} (.restart (.inl rfl) _ _)
  | mainSupplyLoss torn => exact .of_next h (.of_calm (.ite (fun _ => {}) fun _ => .refl s))
  | backupSupplyFail => exact .of_next h (.of_calm (.ite (fun _ => .refl s) fun _ => {}))
  | departure =>
    refine .of_next h (.ite (fun _ => ?_) fun _ => .refl s)
    split
    case h_1 r hr =>
      refine .ite (fun _ => .departs hr (.inr rfl) rfl rfl) fun _ => ?_
      split
      · exact .departs hr (.inl rfl) rfl rfl
      · exact .refl s
    case h_2 => exact .refl s
  | lineReturnsToMark => exact .of_next h (.of_calm {})

/-- Settles O60: each command is calm, or is one of those R6 names. -/
theorem stationMovesOnlyAsAllowed : Obligations.StationMovesOnlyAsAllowed :=
  fun _ _ _ hs h => exec_moves h hs

end Sys2Proof.Machine
end

section

-- One thread per proof would pass the memory limit of the build: each has a stack of its own.
set_option Elab.async false

/-! # Proofs: commands, ports and requests -/

namespace Sys2Proof.Machine

/-- Settles O1: with a command at the front of the queue a step is its meaning. -/
theorem stepRunsFrontCommand : Obligations.StepRunsFrontCommand := by
  intro c rest s h
  rw [step, h]

/-! ### What a request is answered -/

/-- What a command runs: the rule of its request at its port, or something else. -/
def RunsRequest (c : Instr) : Option (Party × Request) → Prop
  | some (p, r) => ∃ rule, ∀ s, exec c s = .next (s.request p r rule)
  | none => ∃ run : State → Out, ∀ s, exec c s = run s

theorem exec_runsRequest (c : Instr) : RunsRequest c (requestSent c) := by
  cases c <;> exact ⟨_, fun _ => rfl⟩

/-- Every command that carries a request is judged by a rule at its port. -/
theorem exec_requestSent {c : Instr} {p : Party} {r : Request} (h : requestSent c = some (p, r)) :
    ∃ rule, ∀ s, exec c s = .next (s.request p r rule) := by
  have hruns := exec_runsRequest c
  rw [h] at hruns
  exact hruns

theorem State.takeFrame_working {s : State} {p : Party} (h : s.portsRespond = true) (hw : (s.port p).slot = .working)
    (judge : State → State × Reply) : s.takeFrame p judge = s.mapPort p Port.drop := by
  rw [State.takeFrame, if_pos h, hw]

/-- A request that the station state refuses is answered STATE. -/
theorem State.request_refused {s : State} {p : Party} {r : Request} (h : Hears s p) (hr : s.stateRefuses r = true)
    (rule : State → State × Reply) : s.request p r rule = answered s p .state [] := by
  rw [State.request, State.takeFrame_heard h, State.take_stateRefuses, if_pos hr, finish_refuse]

/-- A heard request that its rule completes without a change is answered so. -/
theorem State.request_answers {s : State} {p : Party} {r : Request} {rule : State → State × Reply} {res : Result}
    {data : List Byte} (h : Hears s p) (hr : s.stateRefuses r = false)
    (hrule : rule (s.mapPort p Port.take) = (s.mapPort p Port.take, .done res data)) :
    s.request p r rule = answered s p res data := by
  rw [State.request_heard h hr, hrule, finish_done]

/-- The same in OPERATING and RECONFIGURING. -/
theorem State.request_completes {s : State} {p : Party} {r : Request} {rule : State → State × Reply} {res : Result}
    {data : List Byte} (h : Serves s p)
    (hrule : rule (s.mapPort p Port.take) = (s.mapPort p Port.take, .done res data)) :
    s.request p r rule = answered s p res data :=
  State.request_answers h.2 (State.stateRefuses_of_settled h.1) hrule

/-- A heard request whose rule changes the state of the frame taken to that of `u` is answered in `u`. -/
theorem State.request_changes {s u : State} {p : Party} {r : Request} {rule : State → State × Reply} {res : Result}
    {data : List Byte} (h : Hears s p) (hr : s.stateRefuses r = false)
    (hrule : rule (s.mapPort p Port.take) = (u.mapPort p Port.take, .done res data)) :
    s.request p r rule = answered u p res data := by
  rw [State.request_heard h hr, hrule, finish_done]

theorem State.request_serves {s u : State} {p : Party} {r : Request} {rule : State → State × Reply} {res : Result}
    {data : List Byte} (h : Serves s p) (hrule : rule (s.mapPort p Port.take) = (u.mapPort p Port.take, .done res data)) :
    s.request p r rule = answered u p res data :=
  State.request_changes h.2 (State.stateRefuses_of_settled h.1) hrule

theorem State.stateRefuses_iff (s : State) (r : Request) :
    s.stateRefuses r = true ↔ s.station.state = .starting ∨ s.station.state = .blank ∧ requestInBlank r = false := by
  simp [State.stateRefuses]

/-- Settles O2: a request and a bad frame are dropped at a WORKING slot, and judged at any other. -/
theorem requestsJudgedBySlotAndState : Obligations.RequestsJudgedBySlotAndState := by
  refine ⟨fun c p s hresp hw hc => ?_, fun c p r s hc hears hst => ?_, fun p fault s => ⟨fun hears => ?_, fun hresp => ?_⟩⟩
  · rcases hc with ⟨r, hr⟩ | ⟨fault, rfl⟩
    · obtain ⟨rule, hrule⟩ := exec_requestSent hr
      rw [hrule, State.request, State.takeFrame_working hresp hw]; rfl
    · exact congrArg _ (State.takeFrame_working hresp hw _)
  · obtain ⟨rule, hrule⟩ := exec_requestSent hc
    rw [hrule, State.request_refused hears ((s.stateRefuses_iff r).mpr ?_)]
    refine hst.imp_right fun ⟨hb, hne⟩ => ⟨hb, ?_⟩
    obtain ⟨h1, h2, h3, h4⟩ := hne
    cases r
    case writeConfig => exact absurd rfl h1
    case readConfig => exact absurd rfl h2
    case readStation => exact absurd rfl h3
    case approve => exact absurd rfl h4
    all_goals rfl
  · refine congrArg _ ((State.takeFrame_heard hears).trans ?_)
    cases fault with
    | badCheck => exact finish_refuse ..
    | overlong => exact finish_refuse ..
    | unknownCode => exact finish_refuse ..
    | wrongLength r =>
      by_cases hr : s.stateRefuses r = true
      · simp only [badFrameJudge, State.take_stateRefuses, hr, if_true, finish_refuse]
      · simp only [badFrameJudge, State.take_stateRefuses, hr, if_false, finish_refuse, Bool.false_eq_true]
  · exact congrArg _ (if_pos hresp)

/-! ### TAKE NOTICE and SET FILTER -/

/-- Two changes of one port are one. -/
theorem State.mapPort_mapPort (s : State) (p : Party) (f g : Port → Port) :
    (s.mapPort p f).mapPort p g = s.mapPort p fun pt => g (f pt) := by
  simp only [State.mapPort, Table.modify, Table.get_set_same]
  congr 1
  apply Table.ext_get
  intro i
  by_cases h : partyIndex p = i
  · subst h; simp
  · rw [Table.get_set_ne _ _ h, Table.get_set_ne _ _ h, Table.get_set_ne _ _ h]

/-- A change of a port that is the same before the frame is taken and after. -/
theorem State.mapPort_take_comm (s : State) (p : Party) {f g : Port → Port}
    (h : f (s.port p).take = (g (s.port p)).take) :
    (s.mapPort p Port.take).mapPort p f = (s.mapPort p g).mapPort p Port.take := by
  rw [State.mapPort_mapPort, State.mapPort_mapPort]
  simp only [State.mapPort, Table.modify]
  rw [show f (s.ports.get (partyIndex p)).take = (g (s.ports.get (partyIndex p))).take from h]

theorem exec_takeNotice {s : State} {p : Party} (h : Serves s p) :
    exec (.takeNotice p) s = .next (answered (s.mapPort p Port.afterTake) p .ok (s.port p).takeData) := by
  refine congrArg _ (State.request_serves h ?_)
  rw [takeNoticeRule, s.mapPort_take_comm p (g := Port.afterTake)]
  · simp [Port.takeData, Port.take, State.port]
  · unfold Port.afterTake Port.take
    cases hq : (s.port p).queue <;> simp [hq]

theorem exec_setFilter {s : State} {p : Party} (h : Serves s p) (f : Nat) :
    exec (.setFilter p f) s =
      if ValueSet.filterSet.allows f then
        .next (answered (s.mapPort p fun pt => { pt with filter := BitVec.ofNat 32 f }) p .ok (be 4 f))
      else .next (answered s p .range []) := by
  split
  case isTrue hf =>
    refine congrArg _ (State.request_serves h ?_)
    rw [setFilterRule, if_pos hf, s.mapPort_take_comm p (g := fun pt => { pt with filter := BitVec.ofNat 32 f })]
    rfl
  case isFalse hf => exact congrArg _ (State.request_completes h (by rw [setFilterRule, if_neg hf]; rfl))

/-- R195: the filter values of SET FILTER. -/
theorem filterSet_allows_iff (f : Nat) : ValueSet.filterSet.allows f = true ↔ f ≤ 0xFFFFFE ∧ f % 2 = 0 := by
  simp only [ValueSet.allows, decide_eq_true_eq]
  omega

/-- Settles O4: TAKE NOTICE by whether the queue is empty, SET FILTER by its value. -/
theorem noticesTakenAndFiltersSet : Obligations.NoticesTakenAndFiltersSet := by
  refine ⟨fun p s h => ⟨fun hq => ?_, fun n rest hq => ?_⟩, fun p f s h => ?_⟩
  · rw [exec_takeNotice h]
    have hsame : s.mapPort p Port.afterTake = s := by
      simp only [State.mapPort, Table.modify]
      rw [show (s.ports.get (partyIndex p)).afterTake = s.ports.get (partyIndex p) by
        rw [Port.afterTake, show (s.ports.get (partyIndex p)).queue = [] from hq], Table.set_get_self]
    rw [hsame, Port.takeData, hq]; rfl
  · rw [exec_takeNotice h]
    have hport : (s.port p).afterTake =
        { s.port p with queue := rest, dropping := false, halfArmed := (s.port p).halfArmed || decide (rest.length < 8) } := by
      rw [Port.afterTake, hq]
    rw [Port.takeData, hq]
    congr 2
    simp only [State.mapPort, Table.modify]
    rw [show (s.ports.get (partyIndex p)).afterTake = _ from hport]; rfl
  · simp only [exec_setFilter h, filterSet_allows_iff]

/-! ### Notice queues -/

theorem bumpTail_dropLast (q : List Notice) : (bumpTail q).dropLast = q.dropLast := by
  induction q with
  | nil => rfl
  | cons a q ih =>
    cases q with
    | nil => rfl
    | cons b q =>
      have hne : bumpTail (b :: q) ≠ [] := fun e => by simpa [e] using bumpTail_length (b :: q)
      rw [bumpTail, List.dropLast_cons_of_ne_nil hne, ih, List.dropLast_cons_of_ne_nil (List.cons_ne_nil b q)]

/-- R196: what an offered notice does while the dropping mark is set. -/
theorem Port.offer_of_dropping {pt : Port} (h : pt.dropping = true) (n : Notice) :
    pt.offer n = { pt with queue := bumpTail pt.queue } := by
  rw [Port.offer, if_pos h]

theorem Port.offer_of_room {pt : Port} (h : pt.dropping = false) (hl : pt.queue.length ≤ 30) (n : Notice) :
    pt.offer n = if pt.queue.length = 15 ∧ pt.halfArmed then
        { pt with queue := pt.queue ++ [n, n.half], halfArmed := false }
      else { pt with queue := pt.queue ++ [n] } := by
  rw [Port.offer, if_neg (by simp [h]), if_pos hl]

theorem Port.offer_of_last {pt : Port} (h : pt.dropping = false) (hl : ¬pt.queue.length ≤ 30) (n : Notice) :
    pt.offer n = { pt with queue := pt.queue ++ [n.full], dropping := true } := by
  rw [Port.offer, if_neg (by simp [h]), if_neg hl]

/-- R193: what asserts ATTN. -/
theorem Port.attn_iff (pt : Port) : pt.attn = true ↔ pt.queue ≠ [] ∨ ∃ r, pt.slot = .ready r := by
  unfold Port.attn
  cases hs : pt.slot <;> simp

/-- Settles O5: an arrival passes the filter, and is offered to the queue by its length. -/
theorem noticeQueueTakesAnArrival : Obligations.NoticeQueueTakesAnArrival := by
  intro pt n hwf
  have hdrop := hwf.2.1
  refine ⟨pt.attn_iff, ?_, hwf.offer n, pt.offer_slot n, pt.offer_dropped n, pt.offer_filter n,
    fun hd => ?_, fun hd hl => ?_, fun hd hl => ?_⟩
  · unfold Port.arrive Port.admits NoticeKind.filterable
    by_cases hk : n.kind.code ≤ 23 <;> cases hf : pt.filter.getLsbD n.kind.code <;> simp [hk]
  · rw [Port.offer_of_dropping hd]
    refine ⟨?_, bumpTail_dropLast _, bumpTail_getLast? _, rfl⟩
    exact (bumpTail_length _).trans (hdrop.mp hd)
  · rw [Port.offer_of_room hd hl]
    by_cases h15 : pt.queue.length = 15 <;> cases ha : pt.halfArmed <;> simp [h15, hd, Notice.half]
  · rw [Port.offer_of_last hd (by omega)]
    exact ⟨rfl, rfl, rfl⟩

/-! ### The reading requests -/

theorem finOf_eq (n k : Nat) : finOf n k = if h : k < n then some ⟨k, h⟩ else none := rfl

theorem finOf_val {n : Nat} (i : Fin n) : finOf n i.val = some i := by
  rw [finOf_eq, dif_pos i.isLt]

/-- A request that reads a numbered thing: its data, or RANGE above the last one. -/
theorem request_reads {s : State} {p : Party} {r : Request} {n k : Nat} (h : Serves s p)
    (rule : State → State × Reply) (data : Fin n → List Byte)
    (hrule : rule (s.mapPort p Port.take) =
      (finOf n k).elim (refuse (s.mapPort p Port.take) .range) fun i => answer (s.mapPort p Port.take) (data i)) :
    (.next (s.request p r rule) : Out) =
      if h : k < n then .next (answered s p .ok (data ⟨k, h⟩)) else .next (answered s p .range []) := by
  by_cases hk : k < n
  · rw [finOf_eq, dif_pos hk] at hrule
    rw [dif_pos hk, State.request_completes h hrule]
  · rw [finOf_eq, dif_neg hk] at hrule
    rw [dif_neg hk, State.request_completes h hrule]

theorem State.port_take (s : State) (p : Party) : (s.mapPort p Port.take).port p = (s.port p).take :=
  Table.get_modify_same ..

theorem State.stateRefuses_of_blank {s : State} {r : Request} (hs : s.station.state ≠ .starting)
    (hr : requestInBlank r = true) : s.stateRefuses r = false := by
  simp [State.stateRefuses, hs, hr]

/-- READ ACCOUNT of the open account, and of the closing one (R140). -/
theorem readAccountRule_open {s : State} {p : Party} {c : Fin 4} {part : Nat}
    (hp : p = s.img.seller c ∨ p = s.img.buyer c) (hpart : part ≤ if s.img.isRecord c then 10 else 2) :
    readAccountRule p c.val 0 part s = answer s (accountPart c (s.contract c).opened part) := by
  rw [readAccountRule, finOf_val]
  dsimp only
  rw [if_neg (by omega), if_neg (fun hn => hp.elim hn.1 hn.2), if_neg (Nat.not_lt.mpr hpart), if_pos rfl]

theorem readAccountRule_closing {s : State} {p : Party} {c : Fin 4} {part : Nat}
    (hp : p = s.img.seller c ∨ p = s.img.buyer c) (hpart : part ≤ if s.img.isRecord c then 10 else 2) :
    readAccountRule p c.val 1 part s = answer s (match (s.contract c).closing with
      | some a => accountPart c a part
      | none => [0x00#8]) := by
  rw [readAccountRule, finOf_val]
  dsimp only
  rw [if_neg (by omega), if_neg (fun hn => hp.elim hn.1 hn.2), if_neg (Nat.not_lt.mpr hpart), if_neg (by omega)]
  cases (s.contract c).closing <;> rfl

/-- Settles O7: each of the fourteen answers from the state as it stands. -/
theorem readsComplete : Obligations.ReadsComplete := by
  refine ⟨fun p s => ⟨fun h => ⟨?_, ?_, ?_, ?_⟩, fun h hst => ?_⟩, fun p n s h => ⟨?_, ?_, ?_, ?_, ?_, ?_⟩, fun p s =>
    ⟨fun image item index img it h hst himg hitem hindex => ?_, fun c h hparty => ⟨fun hpriced => ⟨?_, ?_⟩, fun part hpart =>
      ⟨?_, ?_⟩⟩⟩⟩
  · refine congrArg _ (State.request_completes h ?_)
    simp only [answer, portData, State.port_take, Port.take, State.take_img]
    rfl
  · exact congrArg _ (State.request_completes h rfl)
  · exact congrArg _ (State.request_completes h rfl)
  · exact congrArg _ (State.request_completes h rfl)
  · exact congrArg _ (State.request_answers h (State.stateRefuses_of_blank hst rfl) rfl)
  · exact request_reads h _ (slotData s) (by unfold readSlotRule; cases finOf 24 n <;> rfl)
  · exact request_reads h _ (streamData s) (by unfold readStreamRule; cases finOf 8 n <;> rfl)
  · exact request_reads h _ (declarationData s) (by unfold readDeclarationRule; cases finOf 13 n <;> rfl)
  · exact request_reads h _ (consumerRecordData s) (by unfold readConsumerRule; cases finOf 12 n <;> rfl)
  · split
    case isTrue hn => exact congrArg _ (State.request_completes h (by rw [readFrameRule, if_neg (by omega)]; rfl))
    case isFalse hn => exact congrArg _ (State.request_completes h (by rw [readFrameRule, if_pos (by omega)]; rfl))
  · split
    case isTrue hn => exact congrArg _ (State.request_completes h (by rw [readStoreRule, if_neg (by omega)]; rfl))
    case isFalse hn => exact congrArg _ (State.request_completes h (by rw [readStoreRule, if_pos (by omega)]; rfl))
  · refine congrArg _ (State.request_answers h (State.stateRefuses_of_blank hst rfl) ?_)
    have hsel : (s.mapPort p Port.take).selectImage image = some (some img) := by
      rcases himg with ⟨rfl, hi⟩ | ⟨rfl, he⟩
      · simp [State.selectImage, hi]
      · simp [State.selectImage, he]
    simp only [readConfigRule, hsel, hitem, if_neg (Nat.not_le.mpr hindex), answer]
  · refine congrArg _ (State.request_completes h ?_)
    have hp : ¬(p ≠ s.img.seller c ∧ p ≠ s.img.buyer c) := fun hn => hparty.elim hn.1 hn.2
    simp [readTariffRule, finOf_val, hp, hpriced, answer, State.contract]
  · refine congrArg _ (State.request_completes h ?_)
    have hp : ¬(p ≠ s.img.seller c ∧ p ≠ s.img.buyer c) := fun hn => hparty.elim hn.1 hn.2
    simp [readTariffRule, finOf_val, hp, hpriced, answer, State.contract]
  · exact congrArg _ (State.request_completes h (readAccountRule_open hparty hpart))
  · exact congrArg _ (State.request_completes h (readAccountRule_closing hparty hpart))

/-! ### Configuration items -/

/-- Settles O8: the refusals in the order the rule tries them. -/
theorem writeConfigPutsTheItem : Obligations.WriteConfigPutsTheItem := by
  intro p item index value s h c refused
  have hbusy : s.busy = true ↔ s.station.commit ≠ none ∨ s.store.clearing ≠ none := by
    simp [State.busy, State.clearInProgress, Option.isSome_iff_ne_none]
  have hrefuse : ∀ r, s.station.state ≠ .starting →
      writeConfigRule item index value (s.mapPort p Port.take) = refuse (s.mapPort p Port.take) r → refused r :=
    fun r hst hr => congrArg _ (State.request_answers h (State.stateRefuses_of_blank hst rfl) hr)
  refine ⟨fun hst => ?_, fun hst hcommit hclear => ?_⟩
  · by_cases hs : s.station.state = .starting
    · exact congrArg _ (State.request_refused h ((s.stateRefuses_iff _).mpr (.inl hs)) _)
    · refine hrefuse .state hs (if_pos ?_)
      rcases hst with h | h | h
      · exact absurd h hs
      · exact .inl h
      · exact .inr (hbusy.mpr h)
  · have hs : s.station.state ≠ .starting := by rcases hst with h | h <;> rw [h] <;> nofun
    have hop : ¬((s.mapPort p Port.take).station.state = .operating ∨ (s.mapPort p Port.take).busy = true) := by
      rintro (hop | hb)
      · rcases hst with h | h <;> rw [State.mapPort_station, h] at hop <;> cases hop
      · rcases hbusy.mp hb with h | h
        · exact h hcommit
        · exact h hclear
    refine ⟨fun hnone => hrefuse .range hs ?_, fun it hit => ⟨fun hheld => ?_, fun hheld htaken => ?_, fun hheld htaken => ?_⟩⟩
    · rw [writeConfigRule, if_neg hop, hnone]
    all_goals
      have hheld' : ((s.mapPort p Port.take).station.state = .reconfiguring ∧ (!it.reconf) = true) ↔
        (s.station.state = .reconfiguring ∧ it.reconf = false) := by simp
      have htaken' : (it.count ≤ index ∨ (!it.values.allows value) = true) ↔
        ¬(index < it.count ∧ it.values.allows value = true) := by
          rw [not_and_or, Nat.not_lt, Bool.not_eq_true, Bool.not_eq_true']
    · refine hrefuse .state hs ?_
      rw [writeConfigRule, if_neg hop, hit]
      exact if_pos (hheld'.mpr hheld)
    · refine hrefuse .range hs ?_
      rw [writeConfigRule, if_neg hop, hit]
      exact (if_neg (mt hheld'.mp hheld)).trans (if_pos (htaken'.mpr htaken))
    · refine congrArg _ (State.request_changes h (State.stateRefuses_of_blank hs rfl) ?_)
      rw [writeConfigRule, if_neg hop, hit]
      exact (if_neg (mt hheld'.mp hheld)).trans (if_neg (fun hn => htaken'.mp hn htaken))

/-- The places of the items do not overlap: a place is one index of one item (R13). -/
theorem itemOffset_injective {l : List Item} {code code' index index' : Nat} {it it' : Item}
    (h : l.find? (fun it => it.code == code) = some it) (hi : index < it.count)
    (h' : l.find? (fun it => it.code == code') = some it') (hi' : index' < it'.count)
    (heq : itemOffset code l + index = itemOffset code' l + index') : code = code' ∧ index = index' := by
  induction l with
  | nil => cases h
  | cons a l ih =>
    rw [List.find?_cons] at h h'
    unfold itemOffset at heq
    by_cases ha : a.code = code <;> by_cases hb : a.code = code'
    · rw [if_pos ha, if_pos hb] at heq
      exact ⟨ha.symm.trans hb, Nat.add_left_cancel heq⟩
    · simp only [ha, BEq.rfl] at h
      cases h
      rw [if_pos ha, if_neg hb, Nat.zero_add, Nat.add_assoc] at heq
      exact absurd heq (hi.trans_le (Nat.le_add_right ..)).ne
    · simp only [hb, BEq.rfl] at h'
      cases h'
      rw [if_neg ha, if_pos hb, Nat.zero_add, Nat.add_assoc] at heq
      exact absurd heq.symm (hi'.trans_le (Nat.le_add_right ..)).ne
    · rw [beq_false_of_ne ha] at h
      rw [beq_false_of_ne hb] at h'
      rw [if_neg ha, if_neg hb, Nat.add_assoc, Nat.add_assoc] at heq
      exact ih h h' (Nat.add_left_cancel heq)

theorem itemOffset_add_lt {l : List Item} {code index : Nat} {it : Item}
    (h : l.find? (fun it => it.code == code) = some it) (hi : index < it.count) :
    itemOffset code l + index < (l.map Item.count).sum := by
  induction l with
  | nil => cases h
  | cons a l ih =>
    rw [List.find?_cons] at h
    rw [List.map_cons, List.sum_cons]
    unfold itemOffset
    by_cases ha : a.code = code
    · simp only [ha, BEq.rfl] at h
      cases h
      rw [if_pos ha, Nat.zero_add]
      exact hi.trans_le (Nat.le_add_right ..)
    · rw [beq_false_of_ne ha] at h
      rw [if_neg ha, Nat.add_assoc]
      exact Nat.add_lt_add_left (ih h) _

/-- R13: the canonical form has 470 places. -/
theorem items_count : (items.map Item.count).sum = 470 := by decide

/-- Settles O9: a written place is read at its own item and index alone. -/
theorem writtenItemReadsBack : Obligations.WrittenItemReadsBack := by
  intro img code code' index index' it it' v hlen hc hi hc' hi'
  refine ⟨?_, by rw [Image.put, List.length_set, hlen]⟩
  unfold Image.get Image.put
  by_cases heq : code' = code ∧ index' = index
  · obtain ⟨rfl, rfl⟩ := heq
    have hlt := items_count ▸ itemOffset_add_lt hc hi
    rw [if_pos ⟨rfl, rfl⟩, List.getD_eq_getElem?_getD, List.getElem?_set_self (hlen ▸ hlt), Option.getD_some]
  · have hne : itemOffset code items + index ≠ itemOffset code' items + index' := fun h => by
      obtain ⟨h1, h2⟩ := itemOffset_injective hc hi hc' hi' h
      exact heq ⟨h1.symm, h2.symm⟩
    rw [if_neg heq, List.getD_eq_getElem?_getD, List.getElem?_set_ne hne, ← List.getD_eq_getElem?_getD]

end Sys2Proof.Machine
end

section

-- One thread per proof would pass the memory limit of the build: each has a stack of its own.
set_option Elab.async false

/-! # Proofs: what a request leaves alone at the other ports -/

namespace Sys2Proof.Machine

/-- The port `b` is the port `a` with notices that arrived. A port that begins to drop notices has grown by one, the
QUEUE FULL, so that what stood in `a` is not the tail that later arrivals raise. -/
structure Port.Grows (a b : Port) : Prop where
  slot : b.slot = a.slot
  dropped : b.dropped = a.dropped
  filter : b.filter = a.filter
  dataOut : b.dataOut = a.dataOut
  length : a.queue.length ≤ b.queue.length
  front : a.queue.dropLast <+: b.queue
  whole : a.dropping = false → a.queue <+: b.queue
  full : a.dropping = false → b.dropping = true → a.queue.length < b.queue.length

namespace Port.Grows

variable {a b c : Port}

theorem refl (a : Port) : a.Grows a :=
  ⟨rfl, rfl, rfl, rfl, Nat.le_refl _, List.dropLast_prefix _, fun _ => List.prefix_refl _, fun h k => by simp [h] at k⟩

/-- What is shorter than a queue, and at its beginning, stands before its tail. -/
theorem prefix_dropLast {p q : List Notice} (h : p <+: q) (hlen : p.length < q.length) : p <+: q.dropLast := by
  refine (List.prefix_of_prefix_length_le h (List.dropLast_prefix q) ?_)
  rw [List.length_dropLast]; omega

theorem trans (h : a.Grows b) (k : b.Grows c) : a.Grows c where
  slot := k.slot.trans h.slot
  dropped := k.dropped.trans h.dropped
  filter := k.filter.trans h.filter
  dataOut := k.dataOut.trans h.dataOut
  length := h.length.trans k.length
  front := by
    refine List.IsPrefix.trans ?_ k.front
    by_cases ha : a.queue = []
    · rw [ha]; exact List.nil_prefix
    · refine prefix_dropLast h.front ?_
      have := List.length_pos_iff.mpr ha
      have := h.length
      rw [List.length_dropLast]; omega
  whole := fun ha => by
    cases hb : b.dropping
    · exact (h.whole ha).trans (k.whole hb)
    · exact (prefix_dropLast (h.whole ha) (h.full ha hb)).trans k.front
  full := fun ha hc => by
    cases hb : b.dropping
    · exact Nat.lt_of_le_of_lt h.length (k.full hb hc)
    · exact Nat.lt_of_lt_of_le (h.full ha hb) k.length

/-- R196: an offered notice joins, or raises the tail of a queue that drops. -/
theorem offer (a : Port) (n : Notice) : a.Grows (a.offer n) := by
  cases hd : a.dropping
  · by_cases hl : a.queue.length ≤ 30
    · have hroom := Port.offer_of_room hd hl n
      split at hroom <;> rw [hroom]
      · exact ⟨rfl, rfl, rfl, rfl, by simp, (List.dropLast_prefix _).trans (List.prefix_append ..),
          fun _ => List.prefix_append .., by simp⟩
      · exact ⟨rfl, rfl, rfl, rfl, by simp, (List.dropLast_prefix _).trans (List.prefix_append ..),
          fun _ => List.prefix_append .., by simp⟩
    · rw [Port.offer_of_last hd hl]
      exact ⟨rfl, rfl, rfl, rfl, by simp, (List.dropLast_prefix _).trans (List.prefix_append ..),
        fun _ => List.prefix_append .., by simp⟩
  · rw [Port.offer_of_dropping hd]
    exact ⟨rfl, rfl, rfl, rfl, (bumpTail_length _).ge, bumpTail_dropLast a.queue ▸ List.dropLast_prefix _,
      fun h => by simp [hd] at h, fun h => by simp [hd] at h⟩

theorem arrive (a : Port) (n : Notice) : a.Grows (a.arrive n) := by
  unfold Port.arrive
  split
  · exact offer a n
  · exact refl a

end Port.Grows

/-- From `s` to `t` notices arrived at the port of `q`, and nothing else happened there. -/
def Arrivals (q : Party) (s t : State) : Prop := (s.port q).Grows (t.port q)

namespace Arrivals

variable {q : Party} {s t u : State}

theorem trans (h : Arrivals q s t) (k : Arrivals q t u) : Arrivals q s u := Port.Grows.trans h k

theorem of_ports (h : t.ports = s.ports) : Arrivals q s t := by
  unfold Arrivals State.port; rw [h]; exact .refl _

theorem refl (s : State) : Arrivals q s s := of_ports rfl

theorem deliver (s : State) (rs : List Party) (n : Notice) : Arrivals q s (s.deliver rs n) := by
  refine List.foldlRecOn rs _ (motive := fun t : Table Port 3 => (s.port q).Grows (t.get (partyIndex q))) (.refl _) ?_
  intro t ht p _
  by_cases hp : partyIndex p = partyIndex q
  · rw [hp, Table.get_modify_same]; exact ht.trans (.arrive ..)
  · rw [Table.get_modify_ne _ _ hp]; exact ht

theorem post (s : State) (rs : List Party) (k : NoticeKind) (i : Nat) (v : BitVec 32) (m b : Nat) :
    Arrivals q s (s.post rs k i v m b) := by
  rcases s.post_cases rs k i v m b with ⟨-, h⟩ | ⟨-, h⟩ <;> rw [h]
  · exact deliver ..
  · exact refl s

theorem askFlag (s : State) (f : Fin 8) (v : Bool) : Arrivals q s (s.askFlag f v) := by
  unfold State.askFlag
  split
  · exact refl s
  · exact trans (t := s.mapAlloc _) (of_ports rfl) (post ..)

theorem mapPort {p : Party} (h : q ≠ p) (s : State) (f : Port → Port) : Arrivals q s (s.mapPort p f) := by
  unfold Arrivals State.port State.mapPort
  rw [Table.get_modify_ne _ _ (partyIndex_ne h.symm)]
  exact .refl _

/-- A request leaves the other ports to what arrives while its rule works. -/
theorem request {p : Party} (h : q ≠ p) (s : State) (r : Request) (rule : State → State × Reply)
    (hr : ∀ t, Arrivals q t (rule t).1) : Arrivals q s (s.request p r rule) := by
  have hfinish : ∀ x : State × Reply, Arrivals q x.1 (State.finish p x) := by
    rintro ⟨t, _ | _⟩
    · exact mapPort h t _
    · exact refl t
  rcases s.request_cases p r rule with ⟨-, he⟩ | ⟨-, -, he⟩ | ⟨-, -, he⟩ | ⟨-, -, he⟩ <;> rw [he]
  · exact refl s
  · exact mapPort h s _
  · exact (mapPort h s _).trans (mapPort h _ _)
  · exact (mapPort h s _).trans ((hr _).trans (hfinish _))

theorem reading {p : Party} (h : q ≠ p) (s : State) (r : Request) (rule : State → State × Reply)
    (hr : ∀ t, (rule t).1 = t) : Arrivals q s (s.request p r rule) :=
  request h s r rule fun t => by rw [hr t]; exact refl t

/-- A rule that touches no port. -/
theorem silent {p : Party} (h : q ≠ p) (s : State) (r : Request) (rule : State → State × Reply)
    (hr : ∀ t, (rule t).1.ports = t.ports) : Arrivals q s (s.request p r rule) :=
  request h s r rule fun t => of_ports (hr t)

end Arrivals

/-! ### The rules that touch no port -/

theorem writeConfigRule_ports (a b : Nat) (v : Int) (s : State) : (writeConfigRule a b v s).1.ports = s.ports := by
  unfold writeConfigRule
  split
  · rfl
  · split
    · rfl
    · split_ifs <;> rfl

theorem approveRule_ports (p : Party) (w : Nat) (s : State) : (approveRule p w s).1.ports = s.ports := by
  have hbegin : ∀ t : State, (t.beginCommit p).ports = t.ports := fun t => by
    unfold State.beginCommit; dsimp only; split <;> rfl
  unfold approveRule
  dsimp only
  split
  · rfl
  · split
    · rfl
    · split
      · rfl
      · split_ifs
        · rfl
        · exact hbegin _
        · rfl

theorem recommissionRule_ports (p : Party) (s : State) : (recommissionRule p s).1.ports = s.ports := by
  unfold recommissionRule
  dsimp only
  split
  · rfl
  · dsimp only
    split <;> rfl

theorem clearStoreRule_ports (p : Party) (s : State) : (clearStoreRule p s).1.ports = s.ports := by
  unfold clearStoreRule
  dsimp only
  split
  · rfl
  · dsimp only
    split <;> rfl

theorem declareRule_ports (p : Party) (a b c : Nat) (s : State) : (declareRule p a b c s).1.ports = s.ports := by
  unfold declareRule
  split
  · rfl
  · split
    · rfl
    · split <;> rfl

/-- A request for an entry does what its rule does, or nothing. -/
theorem judgeEntry_fst (s : State) (p : Party) (entry : Nat) (rule : Fin 12 → State × Reply) :
    (judgeEntry s p entry rule).1 = s ∨ ∃ e, (judgeEntry s p entry rule).1 = (rule e).1 := by
  unfold judgeEntry
  split
  · exact .inl rfl
  · split
    · exact .inl rfl
    · split
      · exact .inr ⟨_, rfl⟩
      · exact .inl rfl

theorem judgeEntry_ports {s : State} (p : Party) (entry : Nat) {rule : Fin 12 → State × Reply}
    (h : ∀ e, (rule e).1.ports = s.ports) : (judgeEntry s p entry rule).1.ports = s.ports := by
  rcases judgeEntry_fst s p entry rule with he | ⟨e, he⟩ <;> rw [he]
  exact h e

theorem confirmRule_ports (id : Nat) (s : State) (e : Fin 12) : (confirmRule id s e).1.ports = s.ports := by
  unfold confirmRule
  dsimp only
  split
  · split <;> rfl
  · split <;> rfl
  · rfl

theorem refuseGrantRule_ports (id a : Nat) (s : State) (e : Fin 12) : (refuseGrantRule id a s e).1.ports = s.ports := by
  unfold refuseGrantRule
  dsimp only
  split
  · split <;> rfl
  · rfl

theorem tripRule_ports (s : State) (e : Fin 12) : (tripRule s e).1.ports = s.ports := by
  unfold tripRule
  dsimp only
  split <;> rfl

theorem setLimitsRule_ports (l : Limits) (s : State) (e : Fin 12) : (setLimitsRule l s e).1.ports = s.ports := by
  unfold setLimitsRule
  split <;> rfl

theorem nominateRule_ports (p : Party) (i k : Nat) (s : State) : (nominateRule p i k s).1.ports = s.ports := by
  unfold nominateRule
  rcases judgeNomination_cases s p i k _ with ⟨r, h⟩ | ⟨-, -, h⟩ <;> rw [h] <;> rfl

theorem cancelRule_ports (p : Party) (i : Nat) (s : State) : (cancelRule p i s).1.ports = s.ports := by
  unfold cancelRule
  rcases judgeNomination_cases s p i 0 _ with ⟨r, h⟩ | ⟨-, -, h⟩ <;> rw [h] <;> rfl

/-- A request for a mark or a record does what its rule does, or nothing. -/
theorem judgeStored_ports {s : State} (a b : Nat) {rule : State × Reply} (h : rule.1.ports = s.ports) :
    (judgeStored s a b rule).1.ports = s.ports := by
  unfold judgeStored
  split
  · rfl
  · split
    · rfl
    · rfl
    · rfl
    · exact h

theorem releaseRule_ports (p : Party) (a b : Nat) (s : State) : (releaseRule p a b s).1.ports = s.ports := by
  refine judgeStored_ports a b ?_
  split
  · rfl
  · dsimp only
    split
    · rfl
    · split_ifs <;> rfl

theorem readRecordRule_ports (p : Party) (a b part : Nat) (s : State) :
    (readRecordRule p a b part s).1.ports = s.ports := by
  refine judgeStored_ports a b ?_
  split
  · rfl
  · split <;> rfl

/-! ### The rules that post -/

namespace Arrivals

variable {q : Party}

theorem setFilterRule {p : Party} (h : q ≠ p) (f : Nat) (s : State) : Arrivals q s (setFilterRule p f s).1 := by
  unfold Machine.setFilterRule
  split
  · exact mapPort h s _
  · exact refl s

theorem flagRule (p : Party) (n : Nat) (v : Bool) (s : State) : Arrivals q s (flagRule p n v s).1 := by
  unfold Machine.flagRule
  split
  · exact refl s
  · split
    · exact refl s
    · split
      · exact refl s
      · exact askFlag ..

theorem judgePriced (s : State) (p : Party) (c : Nat) (who : Fin 4 → Party) (rule : Fin 4 → State × Reply)
    (h : ∀ c, Arrivals q s (rule c).1) : Arrivals q s (judgePriced s p c who rule).1 := by
  unfold Machine.judgePriced
  split
  · exact refl s
  · split
    · exact refl s
    · split
      · exact refl s
      · exact h _

theorem stageRule (e : Nat) (b : List Band) (n : Nat) (s : State) (c : Fin 4) :
    Arrivals q s (stageRule e b n s c).1 := by
  unfold Machine.stageRule
  dsimp only
  split
  · exact refl s
  · split
    · exact refl s
    · split_ifs
      · exact refl s
      · exact refl s
      · refine trans ?_ (post ..)
        exact of_ports rfl

theorem consentRule (n : Nat) (s : State) (c : Fin 4) : Arrivals q s (consentRule n s c).1 := by
  unfold Machine.consentRule
  split
  · exact refl s
  · split <;> exact of_ports rfl

theorem withdrawRule (s : State) (c : Fin 4) : Arrivals q s (withdrawRule s c).1 := by
  unfold Machine.withdrawRule
  split
  · exact refl s
  · split
    · exact refl s
    · exact trans (t := s.mapContract _ _) (of_ports rfl) (post ..)

theorem adjustRule (p : Party) (n : Int) (s : State) : Arrivals q s (adjustRule p n s).1 := by
  unfold Machine.adjustRule
  split
  · exact refl s
  · split
    · exact of_ports rfl
    · split
      · exact of_ports rfl
      · refine trans ?_ (post ..)
        exact of_ports rfl

end Arrivals

/-- What a command that carries a request does at the port of `q`, another party's: notices arrive there alone. -/
def ArrivesAlone (q : Party) (c : Instr) : Option (Party × Request) → Prop
  | some (p, _) => q ≠ p → ∀ s, ∃ t, exec c s = .next t ∧ Arrivals q s t
  | none => True

theorem exec_arrivesAlone (q : Party) (c : Instr) : ArrivesAlone q c (requestSent c) := by
  cases c with
  | takeNotice p => exact fun hq s => ⟨_, rfl, .request hq s _ _ fun t => .mapPort hq t _⟩
  | setFilter p f => exact fun hq s => ⟨_, rfl, .request hq s _ _ (.setFilterRule hq f)⟩
  | readPort p => exact fun hq s => ⟨_, rfl, .reading hq s _ _ fun _ => rfl⟩
  | writeConfig p a b v => exact fun hq s => ⟨_, rfl, .silent hq s _ _ (writeConfigRule_ports a b v)⟩
  | readConfig p a b d => exact fun hq s => ⟨_, rfl, .reading hq s _ _ (readConfigRule_fst a b d)⟩
  | readStation p => exact fun hq s => ⟨_, rfl, .reading hq s _ _ fun _ => rfl⟩
  | approve p w => exact fun hq s => ⟨_, rfl, .silent hq s _ _ (approveRule_ports p w)⟩
  | recommission p => exact fun hq s => ⟨_, rfl, .silent hq s _ _ (recommissionRule_ports p)⟩
  | clearStore p => exact fun hq s => ⟨_, rfl, .silent hq s _ _ (clearStoreRule_ports p)⟩
  | readSlot p n => exact fun hq s => ⟨_, rfl, .reading hq s _ _ (readSlotRule_fst n)⟩
  | readStream p n => exact fun hq s => ⟨_, rfl, .reading hq s _ _ (readStreamRule_fst n)⟩
  | declare p a b d => exact fun hq s => ⟨_, rfl, .silent hq s _ _ (declareRule_ports p a b d)⟩
  | readDeclaration p n => exact fun hq s => ⟨_, rfl, .reading hq s _ _ (readDeclarationRule_fst n)⟩
  | setFlag p n => exact fun hq s => ⟨_, rfl, .request hq s _ _ (.flagRule p n true)⟩
  | clearFlag p n => exact fun hq s => ⟨_, rfl, .request hq s _ _ (.flagRule p n false)⟩
  | readFlags p => exact fun hq s => ⟨_, rfl, .reading hq s _ _ fun _ => rfl⟩
  | readFrame p n => exact fun hq s => ⟨_, rfl, .reading hq s _ _ (readFrameRule_fst n)⟩
  | confirmGrant p e i => exact fun hq s => ⟨_, rfl, .silent hq s _ _ fun t => judgeEntry_ports p e (confirmRule_ports i t)⟩
  | refuseGrant p e i a =>
    exact fun hq s => ⟨_, rfl, .silent hq s _ _ fun t => judgeEntry_ports p e (refuseGrantRule_ports i a t)⟩
  | reportTrip p e => exact fun hq s => ⟨_, rfl, .silent hq s _ _ fun t => judgeEntry_ports p e (tripRule_ports t)⟩
  | reportReady p e n => exact fun hq s => ⟨_, rfl, .silent hq s _ _ fun t => judgeEntry_ports p e fun _ => rfl⟩
  | park p e => exact fun hq s => ⟨_, rfl, .silent hq s _ _ fun t => judgeEntry_ports p e fun _ => rfl⟩
  | unpark p e => exact fun hq s => ⟨_, rfl, .silent hq s _ _ fun t => judgeEntry_ports p e fun _ => rfl⟩
  | setLimits p e a b d x =>
    exact fun hq s => ⟨_, rfl, .silent hq s _ _ fun t => judgeEntry_ports p e (setLimitsRule_ports ⟨a, b, d, x⟩ t)⟩
  | readConsumer p n => exact fun hq s => ⟨_, rfl, .reading hq s _ _ (readConsumerRule_fst n)⟩
  | nominate p i k => exact fun hq s => ⟨_, rfl, .silent hq s _ _ (nominateRule_ports p i k)⟩
  | cancelNomination p i => exact fun hq s => ⟨_, rfl, .silent hq s _ _ (cancelRule_ports p i)⟩
  | readInterval p => exact fun hq s => ⟨_, rfl, .reading hq s _ _ fun _ => rfl⟩
  | stageTariff p k e b n =>
    exact fun hq s => ⟨_, rfl, .request hq s _ _ fun t => .judgePriced t p k _ _ (.stageRule e b n t)⟩
  | consentTariff p k n => exact fun hq s => ⟨_, rfl, .request hq s _ _ fun t => .judgePriced t p k _ _ (.consentRule n t)⟩
  | withdrawTariff p k => exact fun hq s => ⟨_, rfl, .request hq s _ _ fun t => .judgePriced t p k _ _ (.withdrawRule t)⟩
  | readTariff p a b => exact fun hq s => ⟨_, rfl, .reading hq s _ _ (readTariffRule_fst p a b)⟩
  | readAccount p a b d => exact fun hq s => ⟨_, rfl, .reading hq s _ _ (readAccountRule_fst p a b d)⟩
  | readRecord p a b d => exact fun hq s => ⟨_, rfl, .silent hq s _ _ (readRecordRule_ports p a b d)⟩
  | releaseRecord p a b => exact fun hq s => ⟨_, rfl, .silent hq s _ _ (releaseRule_ports p a b)⟩
  | readStore p n => exact fun hq s => ⟨_, rfl, .reading hq s _ _ (readStoreRule_fst n)⟩
  | readTime p => exact fun hq s => ⟨_, rfl, .reading hq s _ _ fun _ => rfl⟩
  | adjustTime p n => exact fun hq s => ⟨_, rfl, .request hq s _ _ (.adjustRule p n)⟩
  | _ => trivial

/-- A request of `p` lets notices arrive at the port of `q`, and does nothing else there. -/
theorem exec_arrivals {c : Instr} {p q : Party} {r : Request} {s t : State} (hc : requestSent c = some (p, r)) (hq : q ≠ p)
    (h : exec c s = .next t) : Arrivals q s t := by
  have halone := exec_arrivesAlone q c
  rw [hc] at halone
  obtain ⟨u, hu, harrivals⟩ := halone hq s
  obtain rfl := Host.Outcome.next.inj (hu.symm.trans h)
  exact harrivals

/-- Settles O6: at every other port there are arrivals alone. -/
theorem requestsLeaveOtherPortsAlone : Obligations.RequestsLeaveOtherPortsAlone := by
  intro c p q r s t hc hq h
  obtain ⟨hslot, hdropped, hfilter, hout, hlen, hfront, hwhole, -⟩ := exec_arrivals hc hq h
  exact ⟨hslot, hdropped, hfilter, hout, hlen, hfront, hwhole⟩

end Sys2Proof.Machine
end

section

-- One thread per proof would pass the memory limit of the build: each has a stack of its own.
set_option Elab.async false

/-! # Proofs: consent windows, the sensor link, slots and flags -/

namespace Sys2Proof

theorem Table.set_set {α : Type} {n : Nat} (t : Table α n) (i : Fin n) (x y : α) :
    (t.set i x).set i y = t.set i y := by
  apply Table.ext_get
  intro j
  simp only [Table.get_set]
  split <;> rfl

end Sys2Proof

namespace Sys2Proof.Machine

/-! ### Consent windows (R19, R20) -/

theorem marks_all (t : Table Bool 3) :
    t.entries.all id = allParties.all fun q => t.get (partyIndex q) := by
  obtain ⟨l, h⟩ := t
  match l, h with
  | [a, b, c], _ => rfl

theorem ConsentWindow.complete_mark (w : ConsentWindow) (p : Party) :
    (w.mark p).complete = allParties.all fun q => (w.marks.set (partyIndex p) true).get (partyIndex q) :=
  marks_all _

theorem State.stateRefuses_of_state {s : State} (r : Request) (h : s.station.state = .operating ∨ s.station.state = .reconfiguring) :
    s.stateRefuses r = false := by
  rcases h with h | h <;> simp [State.stateRefuses, h]

theorem ConsentWindow.expired_of_left {w : ConsentWindow} (h : w.left = some 0) : w.expired = true := by
  simp [ConsentWindow.expired, h]

/-- R19: the third RECOMMISSION, and one before it. -/
theorem recommissionRule_third {p : Party} {s : State} (hop : s.station.state = .operating)
    (hall : (s.station.recommission.mark p).complete = true) : recommissionRule p s =
      ((s.mapStation fun x => { x with recommission := x.recommission.mark p }).enterReconfiguring, .done .ok []) := by
  rw [recommissionRule, if_neg (by simp [hop])]
  exact Prod.ext (if_pos hall) rfl

theorem recommissionRule_before {p : Party} {s : State} (hop : s.station.state = .operating)
    (hall : ¬(s.station.recommission.mark p).complete = true) : recommissionRule p s =
      (s.mapStation fun x => { x with recommission := x.recommission.mark p }, .done .ok []) := by
  rw [recommissionRule, if_neg (by simp [hop])]
  exact Prod.ext (if_neg hall) rfl

/-- Settles O11: the third mark is the one that makes the window complete. -/
theorem recommissionAndItsWindow : Obligations.RecommissionAndItsWindow := by
  refine ⟨fun p s h hop => ?_, fun s hrun => ⟨fun hleft => ?_, fun hleft => ?_⟩⟩
  · intro w marks
    have hmark := s.station.recommission.complete_mark p
    have hserved := State.stateRefuses_of_state .recommission (.inl hop)
    split
    case isTrue hall =>
      let u := (s.mapStation fun x => { x with recommission := x.recommission.mark p }).enterReconfiguring
      have hrule := recommissionRule_third (s := s.mapPort p Port.take) hop (hmark.trans hall)
      exact ⟨u, congrArg _ (State.request_changes h hserved hrule), rfl, rfl, rfl, rfl, rfl, fun i => Table.get_map ..,
        fun c => Table.get_map .., rfl, rfl, rfl, rfl⟩
    case isFalse hall =>
      have hrule := recommissionRule_before (s := s.mapPort p Port.take) hop fun hc => hall (hmark.symm.trans hc)
      exact congrArg _ (State.request_changes h hserved hrule)
  · exact congrArg _ (if_pos (by rw [hrun, ConsentWindow.expired_of_left hleft]; rfl))
  · exact congrArg _ (if_pos (by rw [hrun, ConsentWindow.expired_of_left hleft]; rfl))

/-- Erasing sectors adds to the erase list. -/
theorem Store.mem_eraseList_listErase (st : Store) (n m : Nat) : m ∈ (st.listErase n).eraseList ↔ m ∈ st.eraseList ∨ m = n := by
  rw [Store.listErase_eraseList]
  split
  case isTrue h =>
    refine ⟨.inl, fun hm => hm.elim id fun he => ?_⟩
    rw [he]; simpa using h
  case isFalse => simp

theorem Store.mem_foldl_listErase (l : List Nat) (st : Store) (m : Nat) :
    m ∈ (l.foldl Store.listErase st).eraseList ↔ m ∈ st.eraseList ∨ m ∈ l := by
  induction l generalizing st with
  | nil => simp
  | cons n l ih => rw [List.foldl_cons, ih, Store.mem_eraseList_listErase, List.mem_cons, or_assoc]

/-- Erasing a sector takes its entries out of the index. -/
theorem Store.listErase_index (st : Store) (n : Nat) :
    (st.listErase n).index = if n < 10 then st.index else st.index.filter fun e => e.sector != n := by
  unfold Store.listErase
  extract_lets st1
  have h1 : st1.index = st.index := by simp only [st1]; split <;> rfl
  by_cases h2 : n < 2
  · rw [if_pos h2, if_pos (by omega), h1]
  · rw [if_neg h2]
    by_cases h10 : n < 10
    · rw [if_pos h10, if_pos h10]; exact h1
    · rw [if_neg h10, if_neg h10, ← h1]

theorem Store.foldl_listErase_index {l : List Nat} {st : Store} (h : st.index = []) :
    (l.foldl Store.listErase st).index = [] := by
  refine List.foldlRecOn l _ (motive := fun t : Store => t.index = []) h fun t ht n _ => ?_
  rw [Store.listErase_index, ht]
  split <;> rfl

theorem Store.startAt_kept (st : Store) (n : Nat) :
    (st.startAt n).index = st.index ∧ (st.startAt n).eraseList = st.eraseList := by
  unfold Store.startAt
  dsimp only
  split <;> exact ⟨rfl, rfl⟩

/-- R164: what the beginning of a store clear does to index and erase list. -/
theorem Store.beginClear_spec (st : Store) (units : Nat) :
    (st.beginClear units).index = [] ∧
    (st.beginClear units).clearing = (if st.written = [] then none else some st.written) ∧
    ∀ n ∈ st.written, n ∈ (st.beginClear units).eraseList := by
  unfold Store.beginClear
  extract_lets listed st1 st2 st3
  have h2 : st2.index = [] := Store.foldl_listErase_index rfl
  have hmem : ∀ n ∈ listed, n ∈ st2.eraseList := fun n hn => (Store.mem_foldl_listErase ..).mpr (.inr hn)
  have h3 : st3.index = st2.index ∧ st3.eraseList = st2.eraseList := by
    simp only [st3]
    split
    · exact Store.startAt_kept ..
    · exact ⟨rfl, rfl⟩
  refine ⟨h3.1.trans h2, ?_, fun n hn => h3.2 ▸ hmem n hn⟩
  simp only [List.isEmpty_iff, listed]

/-- R20: the third CLEAR STORE, and one before it. -/
theorem clearStoreRule_third {p : Party} {s : State} (hst : s.station.state = .reconfiguring) (hbusy : s.busy = false)
    (hall : (s.station.clearStore.mark p).complete = true) :
    let s1 := s.mapStation fun x => { x with clearStore := x.clearStore.mark p }
    clearStoreRule p s = ({ s1 with
      station := { s1.station with clearStore := ConsentWindow.closed }
      store := s1.store.beginClear s1.unitsAtClear
      free := s1.free + 1 }, .done .ok []) := by
  rw [clearStoreRule, if_neg (by simp [hst, hbusy])]
  exact Prod.ext (if_pos hall) rfl

theorem clearStoreRule_before {p : Party} {s : State} (hst : s.station.state = .reconfiguring) (hbusy : s.busy = false)
    (hall : ¬(s.station.clearStore.mark p).complete = true) :
    clearStoreRule p s = (s.mapStation fun x => { x with clearStore := x.clearStore.mark p }, .done .ok []) := by
  rw [clearStoreRule, if_neg (by simp [hst, hbusy])]
  exact Prod.ext (if_neg hall) rfl

/-- Settles O12: the third mark begins the clear. -/
theorem clearStoreMarksAndClears : Obligations.ClearStoreMarksAndClears := by
  intro p s h hst hcommit hclear w marks
  have hbusy : s.busy = false := by simp [State.busy, State.clearInProgress, hcommit, hclear]
  have hmark := s.station.clearStore.complete_mark p
  have hserved := State.stateRefuses_of_state .clearStore (.inr hst)
  split
  case isTrue hall =>
    obtain ⟨hindex, hlisted, hmem⟩ := s.store.beginClear_spec s.unitsAtClear
    let u := { s with
      station := { s.station with clearStore := ConsentWindow.closed }
      store := s.store.beginClear s.unitsAtClear
      free := s.free + 1 }
    have hrule := clearStoreRule_third (s := s.mapPort p Port.take) hst hbusy (hmark.trans hall)
    exact ⟨u, congrArg _ (State.request_changes h hserved hrule), rfl, hst, hindex, hlisted, hmem, rfl, rfl, rfl⟩
  case isFalse hall =>
    have hrule := clearStoreRule_before (s := s.mapPort p Port.take) hst hbusy fun hc => hall (hmark.symm.trans hc)
    exact congrArg _ (State.request_changes h hserved hrule)

/-! ### Characters and readings (R21 to R26) -/

theorem popCount_eq (c : Byte) (k : Nat) : popCount c k = ((List.range k).filter fun i => c.getLsbD i).length := by
  induction k with
  | zero => rfl
  | succ k ih =>
    rw [popCount, ih, List.range_succ, List.filter_append, List.length_append]
    cases h : c.getLsbD k <;> simp [h, Nat.add_comm]

theorem charValid_iff (c : Byte) (parity stop : Bool) : charValid c parity stop = true ↔
    stop = true ∧ (((List.range 8).filter fun k => c.getLsbD k).length + if parity then 1 else 0) % 2 = 0 := by
  rw [charValid, popCount_eq, Bool.and_eq_true, beq_iff_eq, and_comm]

/-- The three value characters spell the value in two's complement. -/
theorem ofBeInt_three (a b c : Byte) : ofBeInt 3 [a, b, c] = (a ++ b ++ c).toInt := by
  have ha := a.isLt
  have hb := b.isLt
  have hc := c.isLt
  have hnat : (a ++ b ++ c).toNat = (a.toNat * 256 + b.toNat) * 256 + c.toNat := by
    rw [BitVec.toNat_append, BitVec.toNat_append, ← Nat.shiftLeft_add_eq_or_of_lt hb, ← Nat.shiftLeft_add_eq_or_of_lt hc,
      Nat.shiftLeft_eq, Nat.shiftLeft_eq]
  rw [BitVec.toInt_eq_toNat_cond, hnat]
  simp [ofBeInt, ofBe]

/-- A character that completes no record moves the assembler alone. -/
theorem State.assembleCharacter_of_none {s : State} {c : Byte} {v : Bool} {a : Assembler}
    (h : assemble s.sensor.assembler c v = (a, none)) :
    s.assembleCharacter c v = { s with sensor := { s.sensor with assembler := a } } := by
  rw [State.assembleCharacter, h]; rfl

/-- So does one that completes a record which is discarded. -/
theorem State.assembleCharacter_of_bad {s : State} {c : Byte} {v : Bool} {a : Assembler} {chars : List Byte} {spoiled : Bool}
    (h : assemble s.sensor.assembler c v = (a, some (chars, spoiled))) (hj : judgeRecord chars spoiled = none) :
    s.assembleCharacter c v = { s with sensor := { s.sensor with assembler := a } } := by
  rw [State.assembleCharacter, h]
  dsimp only
  rw [hj]; rfl

theorem State.assembleCharacter_of_good {s : State} {c : Byte} {v : Bool} {a : Assembler} {chars : List Byte}
    {spoiled : Bool} {r : Reading} (h : assemble s.sensor.assembler c v = (a, some (chars, spoiled)))
    (hj : judgeRecord chars spoiled = some r) :
    s.assembleCharacter c v = (s.mapSensor fun x => { x with assembler := a }).offerReading r := by
  rw [State.assembleCharacter, h]
  dsimp only
  rw [hj]

theorem exec_characterReceived {s : State} (h : s.inputsRun = true) (c : Byte) (parity stop : Bool) :
    exec (.characterReceived c parity stop) s =
      .next ((s.linkCharacter (charValid c parity stop)).assembleCharacter c (charValid c parity stop)) :=
  congrArg _ (if_pos h)

theorem State.linkCharacter_of_up {s : State} (h : s.sensor.linkUp = true) (v : Bool) : s.linkCharacter v = s := by
  rw [State.linkCharacter, h, if_neg (by simp)]

theorem judgeRecord_six (slot v2 v1 v0 status check : Byte) :
    judgeRecord [slot, v2, v1, v0, status, check] false =
      if check = slot ^^^ v2 ^^^ v1 ^^^ v0 ^^^ status then
        some ⟨Fin.ofNat 24 slot.toNat, (v2 ++ v1 ++ v0).toInt, status.getLsbD 0, status.getLsbD 1⟩
      else none := by
  rw [← ofBeInt_three]; rfl

/-- Settles O13: the rows of R22 one by one, then the judgement of an unspoiled record's last character. -/
theorem charactersMakeReadings : Obligations.CharactersMakeReadings := by
  refine ⟨charValid_iff, fun c parity stop s hrun hup => ?_⟩
  intro valid run goes
  have hexec : run = .next (s.assembleCharacter c valid) := by
    simp only [run, valid]
    rw [exec_characterReceived hrun, State.linkCharacter_of_up hup]
  have hmoves : ∀ a, assemble s.sensor.assembler c valid = (a, none) → goes a := fun a ha =>
    hexec.trans (congrArg _ (State.assembleCharacter_of_none ha))
  have hdrops : ∀ a chars, assemble s.sensor.assembler c valid = (a, some (chars, true)) → goes a := fun a chars ha =>
    hexec.trans (congrArg _ (State.assembleCharacter_of_bad ha rfl))
  refine ⟨fun ha => ?_, fun k held spoiled ha hlo hhi => ⟨fun hv => ?_, fun hv hk => ?_, fun hv hk hs => ?_,
    fun hv hk hk6 hs => ?_⟩, fun slot v2 v1 v0 status ha hslot hv => ?_⟩
  · refine hmoves _ ?_
    rw [ha, assemble]
    by_cases hc : c = 0x7E#8 <;> cases valid <;> simp [hc, startChar]
  · by_cases hk : k = 7
    · rw [if_pos hk]
      exact hdrops _ (held ++ [c]) (by rw [ha, assemble, hv, hk]; rfl)
    · rw [if_neg hk]
      exact hmoves _ (by rw [ha, assemble, hv]; exact if_neg hk)
  · refine hmoves _ ?_
    rw [ha, assemble, hv, if_neg (by simp), if_pos hk]
    by_cases hc : c = 0x7E#8
    · simp [hc, startChar]
    · by_cases h23 : c.toNat ≤ 23 <;> simp [hc, startChar, h23]
  · have hassemble : assemble s.sensor.assembler c valid =
        if c = 0x7E#8 then (.assembling 2 [] false, none)
        else if k = 7 then (.hunting, some (held ++ [c], true)) else (.assembling (k + 1) (held ++ [c]) true, none) := by
      rw [ha, assemble, hv, if_neg (by simp), if_neg (by omega), hs]
      simp [startChar]
    split_ifs at hassemble ⊢
    · exact hmoves _ hassemble
    · exact hdrops _ _ hassemble
    · exact hmoves _ hassemble
  · refine hmoves _ ?_
    rw [ha, assemble, hv, hs, if_neg (by simp), if_neg (by omega), if_neg (by simp), if_neg (by omega)]
  · intro good q
    have hassemble : assemble s.sensor.assembler c valid = (.hunting, some ([slot, v2, v1, v0, status, c], false)) := by
      rw [ha, assemble, hv]; rfl
    have hgood : good → run = .next ((s.mapSensor fun x => { x with assembler := .hunting }).offerReading
        ⟨Fin.ofNat 24 slot.toNat, (v2 ++ v1 ++ v0).toInt, status.getLsbD 0, status.getLsbD 1⟩) := fun hg => by
      rw [hexec, State.assembleCharacter_of_good hassemble ((judgeRecord_six ..).trans (if_pos hg))]
    refine ⟨fun hg => ?_, fun hg hq => ?_, fun hg hq harm => ?_, fun hg hq harm => ?_⟩
    · exact hexec.trans (congrArg _ (State.assembleCharacter_of_bad hassemble ((judgeRecord_six ..).trans (if_neg hg))))
    · exact (hgood hg).trans (congrArg _ (if_pos hq))
    · exact (hgood hg).trans (congrArg _ ((if_neg (Nat.not_lt.mpr hq)).trans (if_neg (by simp [harm]))))
    · refine (hgood hg).trans (congrArg _ ((if_neg (Nat.not_lt.mpr hq)).trans ((if_pos harm).trans ?_)))
      rw [show (Fin.ofNat 24 slot.toNat).val = slot.toNat from Nat.mod_eq_of_lt hslot]; rfl

/-! ### Breaks (R24, R25) -/

/-- Settles O14: the link state first, then the assembler. -/
theorem breaksTakeTheLinkDown : Obligations.BreaksTakeTheLinkDown := by
  intro s
  refine ⟨fun hrun hb hup => ?_, fun hrun hb hup => ?_, rfl, fun c parity hrun hup hhunt hv => ?_⟩
  · refine congrArg _ ((if_pos (by rw [hrun, hb]; rfl)).trans ?_)
    rw [State.breakDetected, hup]; rfl
  · refine congrArg _ ((if_pos (by rw [hrun, hb]; rfl)).trans ?_)
    rw [State.breakDetected, hup]; rfl
  · refine ⟨fit32 0 4294967295 Config.wideWord ((s.clock.time : Int) - s.sensor.breakAt), fun h1 h2 => ?_, ?_⟩
    · rw [fit32, if_pos (by omega), ← Int.ofNat_sub h1]
      exact BitVec.ofInt_natCast ..
    · rw [exec_characterReceived hrun, hv]
      have hlink : s.linkCharacter true =
          ((s.mapSensor fun x => { x with linkUp := true }).askFlag 6 false).post allParties .linkRestored 0
            (fit32 0 4294967295 Config.wideWord ((s.clock.time : Int) - s.sensor.breakAt)) := by
        rw [State.linkCharacter, hup]; simp [flagLinkDown]
      rw [hlink]
      refine congrArg _ (State.assembleCharacter_of_none ?_)
      rw [State.post_sensor, State.askFlag_sensor, State.mapSensor_sensor]
      dsimp only
      rw [hhunt, assemble]
      by_cases hc : c = 0x7E#8 <;> simp [hc, startChar]

/-! ### Flags (R67, R68) -/

/-- Taking a frame and asking for a flag may be exchanged. -/
theorem State.askFlag_take (s : State) (p : Party) (f : Fin 8) (v : Bool) :
    (s.mapPort p Port.take).askFlag f v = (s.askFlag f v).mapPort p Port.take := by
  unfold State.askFlag
  rw [State.mapPort_alloc]
  split
  · rfl
  · exact State.post_take (s.mapAlloc fun a => { a with flags := a.flags.set f ⟨v, some s.clock.time⟩ }) p ..

/-- Settles O15: by the number asked for and its owner. -/
theorem flagsChangeWhenAsked : Obligations.FlagsChangeWhenAsked := by
  refine ⟨fun f v s hs => ?_, fun p n v s h => ?_⟩
  · unfold State.askFlag
    split
    · rfl
    · rcases State.post_cases (s.mapAlloc fun a => { a with flags := a.flags.set f ⟨v, some s.clock.time⟩ }) allParties
        .flagChanged f.val (if v then 1#32 else 0#32) 0 0 with ⟨-, h⟩ | ⟨hn, -⟩
      · exact h
      · exact absurd (hs.symm.trans hn) (by simp)
  · intro c
    have hrule : ∀ {u : State} {r : Result} {data : List Byte},
        flagRule p n v (s.mapPort p Port.take) = (u.mapPort p Port.take, .done r data) →
        exec c s = .next (answered u p r data) := fun hr => by
      cases v
      · exact congrArg _ (State.request_serves h hr)
      · exact congrArg _ (State.request_serves h hr)
    refine ⟨fun f hf hn howner => hrule ?_, fun hn howner => hrule ?_, fun hlo hhi => hrule ?_, fun hn => hrule ?_⟩
    · subst hf
      rw [flagRule, finOf_val]
      dsimp only
      rw [if_neg (by omega), if_neg (by simpa using howner), State.askFlag_take]
      cases v <;> rfl
    · rw [flagRule, finOf_eq, dif_pos (by omega)]
      dsimp only
      rw [if_neg (by omega), if_pos (by simpa using howner)]; rfl
    · rw [flagRule, finOf_eq, dif_pos hhi]
      dsimp only
      rw [if_pos hlo]; rfl
    · rw [flagRule, finOf_eq, dif_neg (by omega)]; rfl

/-! ### Slots (R29 to R32) -/

/-- R29: a record is good, or has a cause. -/
theorem faultCause_eq (img : Image) (r : Reading) :
    faultCause img r = if r.fault = false ∧ (img.slotKind r.slot).good r.value = true then none
      else some (if r.fault then .fault else .range) := by
  unfold faultCause
  cases r.fault <;> cases (img.slotKind r.slot).good r.value <;> rfl

/-- R28: the value in use of a slot that is substituted. -/
theorem valueInUse_substitute (img : Image) (i : Fin 24) (sl : Slot) (cause : Cause) :
    valueInUse img i (sl.substitute cause) =
      if img.fixedRule i then img.fixedValue i else sl.lastGood.getD (img.fixedValue i) :=
  valueInUse_of_not_fresh img i _ nofun

/-- Settles O17: by the cause of the head record, and the state of its slot. -/
theorem readingsReachTheirSlots : Obligations.ReadingsReachTheirSlots := by
  intro r rest s hrun htick hq sl put good fresh cause held
  have hexec : exec .readingApplied s = .next ((s.mapSensor fun x => x.afterApply rest).applyReading r) := by
    refine congrArg _ ((if_pos (by rw [hrun, htick]; rfl)).trans ?_)
    rw [hq]
  have hcause : faultCause s.img r = if good then none else some cause := faultCause_eq s.img r
  rw [hexec, State.applyReading]
  have himg : (s.mapSensor fun x => x.afterApply rest).img = s.img := rfl
  rw [himg, hcause]
  refine ⟨fun hg hst => ?_, fun hg hst => ?_, fun hg hst => ?_, fun hg hst => ?_⟩
  · rw [if_pos hg]
    exact congrArg _ (if_neg hst)
  · rw [if_pos hg]
    exact congrArg _ (if_pos hst)
  · rw [if_neg hg]
    exact congrArg _ (if_pos hst)
  · rw [if_neg hg]
    refine congrArg _ ((if_neg hst).trans ?_)
    rw [State.substituteSlot, himg, valueInUse_substitute]; rfl

/-- Settles O18: the due step of a FRESH slot at its maximum age substitutes it. -/
theorem slotsExpireAtTheirMaximumAge : Obligations.SlotsExpireAtTheirMaximumAge := by
  intro i s hrun sl hdue hfresh hage
  refine congrArg _ ((if_pos hrun).trans ?_)
  rw [State.slotAgeStep]
  dsimp only
  rw [if_pos hdue, if_pos hfresh, if_neg (Nat.not_lt.mpr hage), State.substituteSlot, valueInUse_substitute]
  simp only [State.setSlot, State.mapSensor, Table.get_set_same, Table.set_set]
  rfl

end Sys2Proof.Machine
end

section

-- One thread per proof would pass the memory limit of the build: each has a stack of its own.
set_option Elab.async false

/-! # Proofs: pulse inputs, increments and declarations -/

namespace Sys2Proof.Machine

/-! ### Pulse inputs (R36 to R38) -/

theorem State.mainOn_of_inputsRun {s : State} (h : s.inputsRun = true) : s.board.mainOn = true := by
  unfold State.inputsRun State.blocksRun at h
  simp only [Bool.and_eq_true] at h
  exact h.1.1

theorem State.passMs_of_mainOn {s : State} (h : s.board.mainOn = true) (ms : Nat) : ∃ e, s.passMs ms = { s with
    clock := { s.clock with millis := (s.clock.millis + ms) % 4294967296, phase := s.clock.phase + ms }
    pulses := { s.pulses with inputs := s.pulses.inputs.map (PulseInput.pass ms) }
    store := { s.store with eraseMs := e } } := by
  rw [State.passMs, if_pos h]
  split
  · exact ⟨_, rfl⟩
  · exact ⟨s.store.eraseMs, rfl⟩

/-- How far two figures lie apart. -/
theorem max_sub_min (a b : Nat) : max a b - min a b = ((a : Int) - b).natAbs := by
  rcases Nat.le_total a b with h | h
  · rw [max_eq_right h, min_eq_left h, Int.natAbs_natCast_sub_natCast_of_le h]
  · rw [max_eq_left h, min_eq_right h, Int.natAbs_natCast_sub_natCast_of_ge h]

/-- R38: the counts of a window differ by more than the limit. -/
theorem CheckWindow.mismatch_eq (w : CheckWindow) (limit : Nat) :
    w.mismatch limit = decide (((w.main : Int) - w.check).natAbs > limit) := by
  rw [CheckWindow.mismatch, max_sub_min]

/-- Settles O19: by what the milliseconds before the command make of the input. -/
theorem pulsesAndCheckWindows : Obligations.PulsesAndCheckWindows := by
  refine ⟨fun pin ms s hrun => ?_, fun x weight => ⟨fun h => ?_, fun a b ha hb => ?_⟩, fun i s hrun hticks => ?_⟩
  · intro t old x put
    obtain ⟨e, ht⟩ := State.passMs_of_mainOn (State.mainOn_of_inputsRun hrun) ms
    have hx : x = old.pass ms := by
      show (s.passMs ms).pulses.inputs.get pin = _
      rw [ht]; exact Table.get_map ..
    have htrun : t.inputsRun = true := by
      show (s.passMs ms).inputsRun = true
      rw [ht]; exact hrun
    have htimg : t.img = s.img := by
      show (s.passMs ms).img = s.img
      rw [ht]; rfl
    have htmillis : t.clock.millis = (s.clock.millis + ms) % 4294967296 := by
      show (s.passMs ms).clock.millis = _
      rw [ht]
    refine ⟨by rw [hx]; rfl, by rw [hx]; rfl, by rw [hx]; rfl, by rw [hx]; rfl, by rw [hx]; rfl, ?_, fun e he => ?_⟩
    · refine congrArg _ ((if_pos htrun).trans ?_)
      rw [show s.passMs ms = t from rfl, htmillis, htimg]; rfl
    · intro counted
      have hqualify : x.qualify = counted := by rw [PulseInput.qualify, he]
      have hreached : x.widthReached = decide (e.width ≤ e.since) := by rw [PulseInput.widthReached, he]
      have hput : t.mapInput pin PulseInput.qualify = put counted := by
        show ({ t with pulses := { t.pulses with inputs := t.pulses.inputs.set pin x.qualify } } : State) = _
        rw [hqualify]
      refine ⟨fun hw => ⟨?_, ?_⟩, fun hw => ⟨?_, ?_⟩⟩
      · have h : (t.inputsRun && x.widthReached) = true := by rw [htrun, hreached]; simpa using hw
        exact congrArg _ ((if_pos h).trans hput)
      · have h : x.widthReached = true := by rw [hreached]; simpa using hw
        exact congrArg _ ((if_pos htrun).trans ((if_pos h).trans hput))
      · have h : ¬(t.inputsRun && x.widthReached) = true := by rw [htrun, hreached]; simpa using hw
        exact congrArg _ (if_neg h)
      · have h : ¬x.widthReached = true := by rw [hreached]; simpa using hw
        exact congrArg _ ((if_pos htrun).trans (if_neg h))
  · unfold instantaneousFlow
    rcases h with h | h
    · rw [h]
    · rw [h]; cases x.previous <;> rfl
  · unfold instantaneousFlow
    rw [ha, hb]; rfl
  · intro w bad t
    refine congrArg _ ((if_pos hrun).trans ?_)
    rw [State.windowEnd]
    dsimp only
    rw [if_pos hticks, CheckWindow.mismatch_eq]; rfl

/-! ### Increments (R43 to R46) -/

/-- R44: neighbouring coefficients fall, within the table's bounds. -/
theorem coefficientTable_falls {i a b : Nat} (ha : coefficientTable[i]? = some a) (hb : coefficientTable[i + 1]? = some b) :
    i < 18 ∧ 10460 ≤ b ∧ b ≤ a ∧ a ≤ 11670 := by
  have hfalls : ∀ i : Fin 18, 10460 ≤ coefficientTable.getD (i.val + 1) 0 ∧
      coefficientTable.getD (i.val + 1) 0 ≤ coefficientTable.getD i.val 0 ∧ coefficientTable.getD i.val 0 ≤ 11670 := by decide
  have hi : i < 18 := Nat.lt_of_succ_lt_succ (List.getElem?_eq_some_iff.mp hb).1
  have h := hfalls ⟨i, hi⟩
  rw [List.getD_eq_getElem?_getD, List.getD_eq_getElem?_getD, ha, hb] at h
  exact ⟨hi, h⟩

/-- R44: between 0 and 18000 the coefficient is interpolated. -/
theorem heatCoefficient_between {i f a b : Nat} (hf : f < 1000) (ha : coefficientTable[i]? = some a)
    (hb : coefficientTable[i + 1]? = some b) :
    heatCoefficient ((1000 * i + f : Nat) : Int) = a - (a - b) * f / 1000 := by
  have hi := (coefficientTable_falls ha hb).1
  have hlt : 1000 * i + f < 18000 := (Nat.add_lt_add_left hf _).trans_le (Nat.mul_le_mul_left 1000 hi)
  have hdiv : ((1000 * i + f : Nat) : Int).toNat / 1000 = i := by
    rw [Int.toNat_natCast, Nat.mul_add_div (by decide), Nat.div_eq_of_lt hf]; rfl
  have hmod : ((1000 * i + f : Nat) : Int).toNat % 1000 = f := by
    rw [Int.toNat_natCast, Nat.mul_add_mod, Nat.mod_eq_of_lt hf]
  have hge : ¬(18000 : Int) ≤ ((1000 * i + f : Nat) : Int) := fun hx => hlt.not_ge (Int.ofNat_le.mp hx)
  rw [heatCoefficient, if_neg (not_lt.mpr (Int.natCast_nonneg _)), if_neg hge]
  simp only [hdiv, hmod, List.getD_eq_getElem?_getD, ha, hb, Option.getD_some]

theorem heatCoefficient_bounds (tm : Int) : 10460 ≤ heatCoefficient tm ∧ heatCoefficient tm ≤ 11670 := by
  by_cases h0 : tm < 0
  · rw [heatCoefficient, if_pos h0]; decide
  · by_cases h18 : 18000 ≤ tm
    · rw [heatCoefficient, if_neg h0, if_pos h18]; decide
    · obtain ⟨n, rfl⟩ := Int.eq_ofNat_of_zero_le (not_lt.mp h0)
      have hi : n / 1000 < 18 := Nat.div_lt_of_lt_mul (Int.ofNat_lt.mp (not_le.mp h18))
      obtain ⟨a, ha⟩ : ∃ a, coefficientTable[n / 1000]? = some a := ⟨_, List.getElem?_eq_getElem (hi.trans (by decide))⟩
      obtain ⟨b, hb⟩ : ∃ b, coefficientTable[n / 1000 + 1]? = some b := ⟨_, List.getElem?_eq_getElem (Nat.succ_lt_succ hi)⟩
      have hcoeff := heatCoefficient_between (f := n % 1000) (Nat.mod_lt _ (by decide)) ha hb
      rw [Nat.div_add_mod] at hcoeff
      rw [hcoeff]
      obtain ⟨-, hlo, hle, hhi⟩ := coefficientTable_falls ha hb
      have hpart : (a - b) * (n % 1000) / 1000 ≤ a - b := by
        refine Nat.div_le_of_le_mul ?_
        rw [Nat.mul_comm 1000]
        exact Nat.mul_le_mul_left _ (Nat.mod_lt _ (by decide)).le
      exact ⟨hlo.trans ((Nat.sub_sub_self hle).symm.trans_le (Nat.sub_le_sub_left hpart a)), (Nat.sub_le ..).trans hhi⟩

/-- R45: a truncated division. -/
theorem gasIncrement_bounds (v : Nat) {p t cv : Int} (hp : 0 ≤ p) (hcv : 0 ≤ cv) :
    (gasIncrement v p t cv : Int) * (101325 * max 1000 (t + 27315)) ≤ v * 1000 * p * 27315 * cv ∧
    v * 1000 * p * 27315 * cv < (gasIncrement v p t cv + 1 : Int) * (101325 * max 1000 (t + 27315)) := by
  have habs : ((absoluteTemperature t : Nat) : Int) = max 1000 (t + 27315) := by
    rw [absoluteTemperature, Nat.cast_max, Int.toNat_eq_max, max_comm (t + 27315), ← max_assoc]; rfl
  obtain ⟨p, rfl⟩ := Int.eq_ofNat_of_zero_le hp
  obtain ⟨cv, rfl⟩ := Int.eq_ofNat_of_zero_le hcv
  have hpos : 0 < 101325 * absoluteTemperature t :=
    Nat.mul_pos (by decide) (Nat.lt_of_lt_of_le (by decide) (Nat.le_max_left 1000 _))
  have hle := Nat.div_mul_le_self (v * 1000 * p * 27315 * cv) (101325 * absoluteTemperature t)
  have hlt := Nat.lt_div_mul_add hpos (a := v * 1000 * p * 27315 * cv)
  have hgas : gasIncrement v (Int.ofNat p) t (Int.ofNat cv) =
    v * 1000 * p * 27315 * cv / (101325 * absoluteTemperature t) := rfl
  rw [← hgas] at hle hlt
  rw [← habs]
  constructor
  · exact_mod_cast hle
  · rw [add_mul, one_mul]; exact_mod_cast hlt

theorem slotIndication_iff (sl : Slot) : slotIndication sl = true ↔ sl.state ≠ .fresh ∨ sl.uncalibrated = true := by
  simp [slotIndication]

theorem State.degradedAt_iff (s : State) (i : Fin 8) (ts : Int) :
    s.degradedAt i ts = true ↔ ∃ k, s.img.streamContract i = some k ∧ s.img.tmin k ≠ 0 ∧ ts < s.img.tmin k := by
  unfold State.degradedAt
  cases h : s.img.streamContract i <;> simp

/-- Settles O20, kind by kind. -/
theorem incrementsOfTheKinds : Obligations.IncrementsOfTheKinds := by
  refine ⟨fun v ts tr theta hth => ⟨fun h => if_pos h, fun h => ?_⟩, heatCoefficient_bounds,
    fun v p t cv hp hcv => gasIncrement_bounds v hp hcv, fun v => rfl,
    fun tm => ⟨fun h => if_pos h, fun h => 
      (if_neg (not_lt.mpr ((by decide : (0 : Int) ≤ 18000).trans h))).trans (if_pos h), fun i f a b hf htm => ?_⟩, fun s i => ?_⟩
  · rw [heatIncrement, if_neg (not_lt.mpr h), Int.natCast_mul, Int.natCast_mul, Int.toNat_of_nonneg (hth.trans h)]; rfl
  · intro k ha hb
    rw [htm]
    exact heatCoefficient_between hf ha hb
  · intro v doubted doubtful a b c o
    refine ⟨fun h => ?_, fun h => ?_, fun h => ?_, fun h => ?_⟩
    · have ho : o = ⟨heatIncrement v (s.slotValue a) (s.slotValue b) (s.img.theta i),
          slotIndication (s.sensor.slots.get a) || slotIndication (s.sensor.slots.get b) ||
            (s.pulses.windows.get i).doubtful, s.degradedAt i (s.slotValue a),
          decide (s.slotValue a - s.slotValue b < 0)⟩ := by
        simp only [o, State.tickOutcome, h]; rfl
      rw [ho]
      refine ⟨rfl, ?_, ?_, s.degradedAt_iff i _⟩
      · simp only [Bool.or_eq_true, slotIndication_iff, doubted, doubtful, or_assoc]
      · simp
    · have ho : o = ⟨gasIncrement v (s.slotValue a) (s.slotValue b) (s.slotValue c),
          slotIndication (s.sensor.slots.get a) || slotIndication (s.sensor.slots.get b) ||
            slotIndication (s.sensor.slots.get c) || (s.pulses.windows.get i).doubtful, false, false⟩ := by
        simp only [o, State.tickOutcome, h]; rfl
      rw [ho]
      refine ⟨rfl, ?_, rfl, rfl⟩
      simp only [Bool.or_eq_true, slotIndication_iff, doubted, doubtful, or_assoc]
    · simp only [o, State.tickOutcome, h]; rfl
    · simp only [o, State.tickOutcome, h]

/-! ### Carries (R47 to R50) -/

theorem raiseSeconds_eq {n : Nat} (h : n ≤ 4294967295) (b : Bool) :
    raiseSeconds n b = min 4294967295 (n + if b then 1 else 0) := by
  unfold raiseSeconds
  cases b
  · rw [if_neg (fun hx => Bool.noConfusion hx.1), if_neg Bool.false_ne_true]
    exact (min_eq_right h).symm
  · rw [if_pos rfl]
    split
    next hlt => exact (min_eq_right hlt.2).symm
    next hge =>
      have hlast : n = 4294967295 := h.antisymm (not_lt.mp fun hn => hge ⟨rfl, hn⟩)
      rw [hlast]; rfl

/-- What a carry takes out of the residual reaches the total, up to the last value of both. -/
theorem carried_mod (t c r m : Nat) : ((t + c) % m * m + r) % (m * m) = (t * m + (c * m + r)) % (m * m) := by
  rw [← Nat.mul_mod_mul_right, Nat.mod_add_mod, Nat.add_mul, Nat.add_assoc]

/-- Settles O21: quotient and remainder by 10⁹. -/
theorem carriesConserveEnergy : Obligations.CarriesConserveEnergy := by
  intro st label o summing u carry
  have hsum : u.residual + carry * 1000000000 = st.residual + o.increment := Nat.mod_add_div' ..
  refine ⟨hsum, Nat.mod_lt _ (by decide), rfl, ?_, rfl, rfl, fun h => raiseSeconds_eq h _, fun h => raiseSeconds_eq h _⟩
  rw [Nat.add_assoc, ← hsum, Nat.add_comm u.residual]
  exact carried_mod ..

/-! ### Declarations (R61 to R63) -/

theorem clampTop_eq (top v : Nat) : clampTop top v = (min top v, decide (min top v ≠ v)) := by
  unfold clampTop
  split
  next h => rw [min_eq_left h.le, decide_eq_true h.ne]
  next h => rw [min_eq_right (not_lt.mp h), decide_eq_false (not_not.mpr rfl)]

theorem clampLifetime_eq (v : Nat) : clampLifetime v = (max 30 (min 900 v), decide (max 30 (min 900 v) ≠ v)) := by
  unfold clampLifetime
  split
  next h => rw [min_eq_right (h.le.trans (by decide)), max_eq_left h.le, decide_eq_true h.ne']
  next h =>
    split
    next hhi => rw [min_eq_left hhi.le, max_eq_right (by decide), decide_eq_true hhi.ne]
    next hhi => rw [min_eq_right (not_lt.mp hhi), max_eq_right (not_lt.mp h), decide_eq_false (not_not.mpr rfl)]

/-- Settles O24: the owner's DECLARE reaches its record. -/
theorem declareTakesTheFigures : Obligations.DeclareTakesTheFigures := by
  intro p d value lifetime s h howner v l
  refine congrArg _ (State.request_serves h ?_)
  have howner' : (s.mapPort p Port.take).declOwner d = some p := howner
  rw [declareRule, finOf_val]
  dsimp only
  rw [howner']
  dsimp only
  rw [if_neg (not_not.mpr rfl), clampLifetime_eq, clampTop_eq]
  refine Prod.ext rfl ?_
  have hmoved : okOrClamped (decide (v ≠ value) || decide (l ≠ lifetime)) =
      if v = value ∧ l = lifetime then .ok else .clamped := by
    by_cases hv : v = value <;> by_cases hl : l = lifetime <;> simp [okOrClamped, hv, hl]
  exact congrArg (fun r => Reply.done r (be 4 v ++ be 2 l)) hmoved

theorem Declaration.lifetime_of_declared {r : Declaration} {x : Declared} (h : r.declared = some x) :
    r.lifetime = x.lifetime := by rw [Declaration.lifetime, h]

/-- The due step of a declaration whose lifetime is reached (R63). -/
theorem State.declAgeStep_moves {s : State} {d : Fin 13} {x : Declared} (hdue : (s.decls.get d).ageDue = true)
    (hx : (s.decls.get d).declared = some x) (hage : x.lifetime ≤ (s.decls.get d).age + 1)
    (hst : (s.decls.get d).state ≠ .fallback) :
    let r := s.decls.get d
    let r' := { r with state := r.state.after, age := 0, ageDue := false }
    s.declAgeStep d = (s.setDecl d r').post allParties
      (if r.state = .fresh then .declarationStale else .declarationFallback) d.val (BitVec.ofNat 32 (declValue s.img d r')) := by
  intro r r'
  rw [State.declAgeStep]
  dsimp only
  rw [if_pos hdue, if_neg hst, if_neg (by rw [Declaration.lifetime_of_declared hx]; exact not_lt.mpr hage)]

/-- Settles O25: FRESH moves to STALE, STALE to FALLBACK. -/
theorem declarationsAge : Obligations.DeclarationsAge := by
  intro d x s hrun r hdue hx hage moved
  refine ⟨fun hst => ?_, fun hst => ?_⟩
  · rw [show r = s.decls.get d from rfl] at *
    refine congrArg _ ((if_pos (by rw [hrun, hst]; rfl)).trans ((State.declAgeStep_moves hdue hx hage (by simp [hst])).trans ?_))
    have hvalue : declValue s.img d { s.decls.get d with state := .stale, age := 0, ageDue := false } = x.value := by
      rw [declValue]; simp only [hx]
    rw [hst, if_pos rfl]
    rw [show DeclState.fresh.after = .stale from rfl, hvalue]; rfl
  · rw [show r = s.decls.get d from rfl] at *
    refine congrArg _ ((if_pos (by rw [hrun, hst]; rfl)).trans ((State.declAgeStep_moves hdue hx hage (by simp [hst])).trans ?_))
    rw [hst, if_neg (by nofun)]; rfl

end Sys2Proof.Machine
end

section

-- One thread per proof would pass the memory limit of the build: each has a stack of its own.
set_option Elab.async false

/-! # Proofs: the second -/

namespace Sys2Proof.Machine

/-! ### A boundary that finds nothing due (R175) -/

/-- A pass over a list whose every step leaves the state as it is. -/
theorem foldl_eq_self {α β : Type} {f : β → α → β} {b : β} {l : List α} (h : ∀ a ∈ l, f b a = b) : l.foldl f b = b := by
  induction l with
  | nil => rfl
  | cons a l ih => rw [List.foldl_cons, h a (List.mem_cons_self ..), ih fun x hx => h x (List.mem_cons_of_mem _ hx)]

theorem ConsentWindow.expired_eq_false {w : ConsentWindow} (h : w.left ≠ some 0) : w.expired = false := by
  simpa [ConsentWindow.expired] using h

/-- With nothing due, nothing is settled. -/
theorem State.settleDue_of_nothingDue {s : State} (h : NothingDue s) : s.settleDue = s := by
  obtain ⟨hslots, hdecls, htimers, hrec, hclear, htick, hwindows, hframe, hckpt⟩ := h
  have h1 : (List.finRange 24).foldl State.slotAgeStep s = s := foldl_eq_self fun i _ => by
    rw [State.slotAgeStep, hslots i]; rfl
  have h2 : (List.finRange 13).foldl State.declAgeStep s = s := foldl_eq_self fun d _ => by
    rw [State.declAgeStep, hdecls d]; rfl
  have h3 : (List.finRange 12).foldl State.settleExpiry s = s := foldl_eq_self fun e _ => by
    have hdue : ∀ n, ¬s.expiryDue e n = true := fun n hn => by
      obtain ⟨-, hst, ht, -⟩ := (s.expiryDue_iff e n).mp hn
      exact htimers e hst ht
    rw [State.settleExpiry, if_neg (hdue 0), if_neg (hdue 1)]
  have h4 : s.expireRecommission = s := by
    rw [State.expireRecommission, ConsentWindow.expired_eq_false hrec, Bool.and_false]; rfl
  have h5 : s.expireClearStore = s := by
    rw [State.expireClearStore, ConsentWindow.expired_eq_false hclear, Bool.and_false]; rfl
  have h6 : s.takeTick = s := by
    rw [State.takeTick, htick]; exact ite_self _
  have h7 : s.endWindows = s := foldl_eq_self fun i _ => by
    rw [State.windowEnd]; exact if_neg (by have := hwindows i; omega)
  have h8 : s.takeFrameCompletion = s := by
    have hnone : s.dueFrame = none := by rw [State.dueFrame, hframe]; exact ite_self _
    rw [State.takeFrameCompletion, hnone]
  have h9 : s.takeCheckpoint = s := by
    have hnone : ¬s.checkpointDue = true := by
      rw [State.checkpointDue, Bool.and_eq_true, decide_eq_true_eq]
      exact fun hn => absurd hn.2 (by omega)
    rw [State.takeCheckpoint, if_neg hnone]
  unfold State.settleDue
  simp only [h1, h2, h3, h4, h5, h6, h7, h8, h9]

/-- R181, as the raise of station time to its successor. -/
theorem State.entersInterval_iff (s : State) (label : Nat) : s.entersInterval label = true ↔
    (label + s.img.dayOffset) % s.img.intervalLength = 0 ∨ intervalOf s.img label ≠ intervalOf s.img s.clock.time := by
  simp [State.entersInterval, State.currentInterval]

theorem Declaration.lifetime_eq (r : Declaration) : r.lifetime = (r.declared.map Declared.lifetime).getD 0 := by
  unfold Declaration.lifetime
  cases r.declared <;> rfl

/-- Settles O23: the boundary settles nothing, completes the second, raises the time and ages what follows it. -/
theorem tickBoundaryRaisesTheTick : Obligations.TickBoundaryRaisesTheTick := by
  intro s hrun hdue hdomain ms shorter
  have hmain : s.board.mainOn = true ∧ s.settled = true := by simpa [State.blocksRun] using hrun
  obtain ⟨e, hpass⟩ := State.passMs_of_mainOn hmain.1 ms
  have hexec : exec .tickBoundary s = .next s.completeSecond.raiseDomain.ageAll := by
    have hset := hmain.2
    refine congrArg _ ((if_neg (by simp [hmain.1])).trans ?_)
    rw [State.settleDue_of_nothingDue hdue]
    unfold State.settled at hset
    cases h : s.station.state <;> simp_all
  have hraised : s.completeSecond.raised s.clock.domain = s.clock.domain + 1 := if_pos hdomain
  have hsecond : s.completeSecond = { s with
      clock := { s.clock with millis := (s.clock.millis + ms) % 4294967296, phase := 0 }
      pulses := { s.pulses with inputs := s.pulses.inputs.map (PulseInput.pass ms) }
      store := { s.store with eraseMs := e } } := by
    unfold State.completeSecond
    dsimp only
    rw [hpass]
  rw [hsecond] at hexec hraised
  refine ⟨_, hexec, ?_⟩
  have hr : s.raised s.clock.domain = s.clock.domain + 1 := hraised
  have himg : ∀ t : State, t.station = s.station → t.img = s.img := fun t h => State.img_congr h
  simp only [State.ageAll, State.raiseDomain, State.raised, show s.clock.domain < lastTime from hdomain, if_true]
  refine ⟨trivial, trivial, trivial, trivial, ?_, trivial, fun i => ?_, fun d => ?_, fun c => ?_, rfl, ?_, trivial, trivial, trivial⟩
  · simp only [State.entersInterval_iff]
    rfl
  · rw [Table.get_mapFin]; rfl
  · rw [Table.get_map, Declaration.atBoundary, Declaration.lifetime_eq]
  · simp only [State.consumer, Table.get_map]; rfl
  · rfl

/-! ### The integration of a tick (R41 to R56) -/

@[simp] theorem Store.enqueue_gatherDue (st : Store) (op : ArrayOp) : (st.enqueue op).gatherDue = st.gatherDue := by
  rcases st.enqueue_cases op with h | ⟨n, -, h⟩ <;> rw [h]

/-- The contracts' boundaries leave a checkpoint that waits waiting. -/
theorem State.takeBoundaries_gatherDue (s : State) (l : Nat) : (s.takeBoundaries l).store.gatherDue = s.store.gatherDue := by
  have hclose : ∀ (t : State) (c : Fin 4) (d : Bool), (t.closePeriod c l d).store.gatherDue = t.store.gatherDue := by
    intro t c d
    unfold State.closePeriod
    extract_lets old opened ended s1 s2 s3 s4
    have h4 : s4.store = t.store := by
      obtain ⟨p, b, h⟩ := s1.openTariff_frame c
      simp only [s4, s3, s2, State.post_store, State.mapContract_store, h, s1]
    split
    · rw [h4]
    · unfold State.handAccount
      rw [State.mapStore_store, Store.enqueue_gatherDue, h4]
  have hextend : ∀ (t : State) (c : Fin 4) (n : Nat), (t.extendPeriod c l n).store = t.store := fun t c n => by
    rw [State.extendPeriod, State.post_store, State.mapContract_store]
  refine List.foldlRecOn _ _ (motive := fun t : State => t.store.gatherDue = s.store.gatherDue) rfl fun t ht c _ => ?_
  unfold State.takeBoundary
  split
  · rw [State.mapContract_store, ← ht]
    unfold State.settleBoundary
    dsimp only
    split_ifs
    · rw [hextend]
    · exact hclose ..
    · exact hclose ..
    · rw [hextend]
  · exact ht

/-- The hand-offs of a tick. -/
theorem State.handOffTick_frame (s : State) (l : Nat) : ∃ p x k b st,
    s.handOffTick l = { s with ports := p, alloc := { s.alloc with flags := x }, tracker := k, billing := b, store := st } ∧
    st.gatherDue = s.store.gatherDue := by
  obtain ⟨b1, h1⟩ := s.creditDelivery_frame (l - 1)
  obtain ⟨p2, x2, k2, b2, h2⟩ := (s.creditDelivery (l - 1)).handOff_frame l (s.creditDelivery (l - 1)).exportCarry
  obtain ⟨p3, b3, st, h3, -, -⟩ := OnlyBilled.takeBoundaries
    ((s.creditDelivery (l - 1)).handOff l (s.creditDelivery (l - 1)).exportCarry) l
  have hgather := State.takeBoundaries_gatherDue
    ((s.creditDelivery (l - 1)).handOff l (s.creditDelivery (l - 1)).exportCarry) l
  refine ⟨p3, x2, k2, b3, st, ?_, ?_⟩
  · unfold State.handOffTick
    dsimp only
    rw [h3, h2, h1]
  · rw [h3] at hgather
    exact hgather.trans (by rw [h2, h1])

theorem foldl_post_frame {α : Type} (l : List α) (rs : List Party) (k : NoticeKind) (i : α → Nat) (v : α → BitVec 32)
    (s : State) : ∃ p, l.foldl (fun t a => t.post rs k (i a) (v a)) s = { s with ports := p } := by
  refine List.foldlRecOn l _ (motive := fun t : State => ∃ p, t = { s with ports := p }) ⟨s.ports, rfl⟩ ?_
  rintro t ⟨p, rfl⟩ a -
  obtain ⟨q, h⟩ := State.post_frame { s with ports := p } rs k (i a) (v a) 0 0
  exact ⟨q, h⟩

/-- What is posted depends on the ports, the station and the clock alone. -/
theorem State.post_ports_congr {s t : State} (hp : s.ports = t.ports) (hst : s.station = t.station) (hk : s.clock = t.clock)
    (rs : List Party) (k : NoticeKind) (i : Nat) (v : BitVec 32) (m b : Nat) :
    (s.post rs k i v m b).ports = (t.post rs k i v m b).ports := by
  unfold State.post State.deliver
  rw [State.settled_congr hst, hk, hp]
  split <;> simp [hp]

theorem foldl_post_ports_congr {α : Type} (l : List α) (rs : List Party) (k : NoticeKind) (i : α → Nat) (v w : α → BitVec 32)
    (hvw : ∀ a ∈ l, v a = w a) {s t : State} (hp : s.ports = t.ports) (hst : s.station = t.station) (hk : s.clock = t.clock) :
    (l.foldl (fun t a => t.post rs k (i a) (v a)) s).ports = (l.foldl (fun t a => t.post rs k (i a) (w a)) t).ports := by
  induction l generalizing s t with
  | nil => exact hp
  | cons a l ih =>
    rw [List.foldl_cons, List.foldl_cons]
    refine ih (fun x hx => hvw x (List.mem_cons_of_mem _ hx)) ?_ (by simpa using hst) (by simpa using hk)
    rw [hvw a (List.mem_cons_self ..)]
    exact State.post_ports_congr hp hst hk ..

/-- What the metering of the streams changes (R42, R47, R48). -/
theorem State.integrateStreams_frame (s : State) (label : Nat) : ∃ p, s.integrateStreams label = { s with
    ports := p
    fiscal := ⟨s.integratedStreams label, none⟩
    pulses := ⟨s.pulses.inputs.map fun x => { x with count := 0 }, s.addedWindows⟩ } := by
  obtain ⟨p, h⟩ := foldl_post_frame s.rollovers allParties .totalRollover (fun i => i.val)
    (fun i => BitVec.ofNat 32 ((s.integratedStreams label).get i).total) { s with
      fiscal := ⟨s.integratedStreams label, none⟩
      pulses := ⟨s.pulses.inputs.map fun x => { x with count := 0 }, s.addedWindows⟩ }
  exact ⟨p, h⟩

/-- R48: the streams that roll over, in ascending index. -/
theorem State.rollovers_eq (s : State) : s.rollovers = (List.finRange 8).filter fun i => s.img.present i && decide (999999999 <
    (s.fiscal.streams.get i).total + ((s.fiscal.streams.get i).residual + (s.tickOutcome i).increment) / 1000000000) := by
  rw [State.rollovers, Image.presentStreams, List.filter_filter]
  congr 1
  funext i
  rw [Bool.and_comm]; rfl

theorem State.integratedStreams_get (s : State) (label : Nat) (i : Fin 8) : (s.integratedStreams label).get i =
    if s.img.present i then (s.fiscal.streams.get i).integrate label (s.tickOutcome i) (s.station.state == .operating)
    else s.fiscal.streams.get i := Table.get_mapFin ..

/-- R48: the notices of the totals that roll over. -/
theorem State.integrateStreams_ports (s : State) (label : Nat) :
    let total (i : Fin 8) : Nat := (s.fiscal.streams.get i).total +
      ((s.fiscal.streams.get i).residual + (s.tickOutcome i).increment) / 1000000000
    (s.integrateStreams label).ports =
      (((List.finRange 8).filter fun i => s.img.present i && decide (999999999 < total i)).foldl
        (fun u i => u.post allParties .totalRollover i.val (BitVec.ofNat 32 (total i % 1000000000))) s).ports := by
  intro total
  unfold State.integrateStreams
  rw [State.rollovers_eq]
  refine foldl_post_ports_congr _ _ _ _ _ _ (fun i hi => ?_) rfl rfl rfl
  have hpresent : s.img.present i = true := (Bool.and_eq_true_iff.mp (List.mem_filter.mp hi).2).1
  dsimp only
  rw [State.integratedStreams_get, if_pos hpresent]; rfl

/-- R54: the carry of the one POWER stream. -/
theorem State.exportCarry_of_power {s : State} {i : Fin 8} (hp : s.img.present i = true) (hk : s.img.streamKind i = .power)
    (hone : ∀ j, s.img.present j = true → s.img.streamKind j = .power → j = i) :
    s.exportCarry = ((s.fiscal.streams.get i).last.map LastTick.carry).getD 0 := by
  unfold State.exportCarry
  split
  case h_1 j hj =>
    have hmem := List.mem_of_find?_eq_some hj
    have hpower := List.find?_some hj
    rw [hone j (List.mem_filter.mp hmem).2 (by simpa using hpower)]
  case h_2 hnone =>
    have := List.find?_eq_none.mp hnone i (List.mem_filter.mpr ⟨List.mem_finRange i, hp⟩)
    simp [hk] at this

theorem State.exportCarry_of_none {s : State} (h : ∀ i, s.img.present i = true → s.img.streamKind i ≠ .power) :
    s.exportCarry = 0 := by
  unfold State.exportCarry
  split
  case h_1 j hj =>
    have hmem := List.mem_of_find?_eq_some hj
    exact absurd (by simpa using List.find?_some hj) (h j (List.mem_filter.mp hmem).2)
  case h_2 => rfl

/-- Out of OPERATING, and without a frame timer, nothing is counted (R56). -/
theorem State.countFrame_idle {s : State} (h : s.station.state ≠ .operating ∨ s.clock.frameTimer = none) (label : Nat) :
    s.countFrame label = s := by
  unfold State.countFrame
  by_cases hop : s.station.state = .operating
  · rw [if_neg (not_not.mpr hop), h.resolve_left (not_not.mpr hop)]
  · rw [if_pos hop]

/-- R56: a tick inside a frame is counted. -/
theorem State.countFrame_inside {s : State} {count length : Nat} (hop : s.station.state = .operating)
    (hft : s.clock.frameTimer = some (count, length)) (h : count + 1 < length) (label : Nat) :
    s.countFrame label = { s with clock := { s.clock with frameTimer := some (count + 1, length) } } := by
  unfold State.countFrame
  rw [if_neg (not_not.mpr hop), hft]
  exact if_pos h

/-- R56: the last tick of a frame sets the averages and leaves the frame due. -/
theorem State.countFrame_last {s : State} {count length : Nat} (hop : s.station.state = .operating)
    (hft : s.clock.frameTimer = some (count, length)) (h : length ≤ count + 1) (label : Nat) :
    s.countFrame label = { s with
      clock := { s.clock with frameTimer := some (0, length) }
      fiscal := { s.fiscal with streams := s.averagedStreams length }
      alloc := { s.alloc with frameDue := some label } } := by
  unfold State.countFrame
  rw [if_neg (not_not.mpr hop), hft]
  exact if_neg (not_lt.mpr h)

/-- No figure of a stream moves but its frame sum and frame average. -/
def SameFigures (x y : Stream) : Prop :=
  x.total = y.total ∧ x.residual = y.residual ∧ x.last = y.last ∧ x.errorSeconds = y.errorSeconds ∧
  x.reverseSeconds = y.reverseSeconds

/-- The frame count changes the frame timer, the stream table and the frame that is due. -/
theorem State.countFrame_frame (s : State) (label : Nat) :
    (s.countFrame label = { s with
      clock := { s.clock with frameTimer := (s.countFrame label).clock.frameTimer }
      fiscal := { s.fiscal with streams := (s.countFrame label).fiscal.streams }
      alloc := { s.alloc with frameDue := (s.countFrame label).alloc.frameDue } }) ∧
    ∀ i, SameFigures ((s.countFrame label).fiscal.streams.get i) (s.fiscal.streams.get i) := by
  by_cases hidle : s.station.state ≠ .operating ∨ s.clock.frameTimer = none
  · rw [State.countFrame_idle hidle]
    exact ⟨rfl, fun i => ⟨rfl, rfl, rfl, rfl, rfl⟩⟩
  · obtain ⟨hop, hft⟩ := not_or.mp hidle
    obtain ⟨⟨count, length⟩, hft⟩ := Option.ne_none_iff_exists'.mp hft
    rcases Nat.lt_or_ge (count + 1) length with h | h
    · rw [State.countFrame_inside (not_not.mp hop) hft h]
      exact ⟨rfl, fun i => ⟨rfl, rfl, rfl, rfl, rfl⟩⟩
    · rw [State.countFrame_last (not_not.mp hop) hft h]
      refine ⟨rfl, fun i => ?_⟩
      rw [State.averagedStreams, Table.get_mapFin]
      exact ⟨rfl, rfl, rfl, rfl, rfl⟩

/-- A checkpoint that waited for the tick is gathered now (R58). -/
theorem State.gatherWaiting_frame (s : State) : ∃ st, s.gatherWaiting = { s with store := st } ∧
    (s.store.gatherDue = none → st = s.store) := by
  unfold State.gatherWaiting
  cases h : s.store.gatherDue with
  | none => exact ⟨s.store, rfl, fun _ => rfl⟩
  | some b => exact ⟨_, rfl, nofun⟩

theorem State.addedWindows_get (s : State) (i : Fin 8) : s.addedWindows.get i =
    let w := s.pulses.windows.get i
    if s.img.streamKind i = .gas ∨ s.img.streamKind i = .heat then
      match s.img.checkInput i with
      | some n => ⟨w.main + (s.pulses.inputs.get (s.img.mainInput i)).count, w.check + (s.pulses.inputs.get n).count,
          w.ticks + 1, w.doubtful⟩
      | none => w
    else w := by
  simp only [State.addedWindows, Table.get_mapFin, Image.windowInput]
  cases s.img.streamKind i <;> cases s.img.checkInput i <;> rfl

/-! What the metering and the hand-offs of a tick leave. -/

/-- The state after the hand-offs of a tick. -/
noncomputable def State.handed (s : State) (label : Nat) : State := (s.integrateStreams label).handOffTick label

/-- The fields the hand-offs of a tick leave alone. -/
theorem State.handed_frame (s : State) (label : Nat) : ∃ ports flags tracker billing store, s.handed label = { s with
      ports := ports, tracker := tracker, billing := billing, store := store, alloc := { s.alloc with flags := flags }
      fiscal := ⟨s.integratedStreams label, none⟩
      pulses := ⟨s.pulses.inputs.map fun x => { x with count := 0 }, s.addedWindows⟩ } ∧
    store.gatherDue = s.store.gatherDue := by
  obtain ⟨p1, hmetered⟩ := s.integrateStreams_frame label
  obtain ⟨p3, x3, k3, b3, st3, hhanded, hgather⟩ := (s.integrateStreams label).handOffTick_frame label
  rw [hmetered] at hhanded hgather
  exact ⟨p3, x3, k3, b3, st3, by rw [State.handed, hmetered, hhanded], hgather⟩

/-- What the metering and the hand-offs of a tick leave at `x` of the state before it. -/
structure TickHanded (s : State) (label : Nat) (x : State) : Prop where
  alloc : x.alloc = { s.alloc with flags := x.alloc.flags }
  station : x.station = s.station
  clock : x.clock = s.clock
  sensor : x.sensor = s.sensor
  decls : x.decls = s.decls
  board : x.board = s.board
  fiscal : x.fiscal = ⟨s.integratedStreams label, none⟩
  pulses : x.pulses = ⟨s.pulses.inputs.map fun x => { x with count := 0 }, s.addedWindows⟩
  gatherDue : x.store.gatherDue = s.store.gatherDue

theorem State.handed_kept (s : State) (label : Nat) : TickHanded s label (s.handed label) := by
  obtain ⟨p, x, k, b, st, h, hg⟩ := s.handed_frame label
  rw [h]
  exact ⟨rfl, rfl, rfl, rfl, rfl, rfl, rfl, rfl, hg⟩

/-- The state after a tick, from that after its hand-offs. -/
noncomputable def State.counted (x : State) (label : Nat) : State := { x with
  clock := { x.clock with
    frameTimer := (x.countFrame label).clock.frameTimer, ckptTicks := x.clock.ckptTicks + 1, lastLabel := label }
  fiscal := { x.fiscal with streams := (x.countFrame label).fiscal.streams }
  alloc := { x.alloc with frameDue := (x.countFrame label).alloc.frameDue }
  store := ((x.countFrame label).countTick label).gatherWaiting.store }

theorem State.counted_station (x : State) (label : Nat) : (x.counted label).station = x.station := rfl

theorem State.counted_eq (x : State) (label : Nat) :
    ((x.countFrame label).countTick label).gatherWaiting = x.counted label := by
  obtain ⟨st, hwaiting, -⟩ := ((x.countFrame label).countTick label).gatherWaiting_frame
  rw [State.counted, hwaiting, State.countTick]
  conv_lhs => rw [(x.countFrame_frame label).1]

/-- With no checkpoint waiting, the counts leave the store. -/
theorem State.counted_store {x : State} (h : x.store.gatherDue = none) (label : Nat) :
    (x.counted label).store = x.store := by
  obtain ⟨st, hwaiting, hstore⟩ := ((x.countFrame label).countTick label).gatherWaiting_frame
  have hsame : ((x.countFrame label).countTick label).store = x.store := by
    rw [State.countTick, (x.countFrame_frame label).1]
  rw [hsame] at hstore
  exact (congrArg State.store hwaiting).trans (hstore h)

/-- Settles O22: metering, hand-offs, frame count and tick count, each by what it changes. -/
theorem tickIntegrationMetersEveryStream : Obligations.TickIntegrationMetersEveryStream := by
  intro label s hrun htick hcommit
  obtain ⟨p1, hmetered⟩ := s.integrateStreams_frame label
  have hports := s.integrateStreams_ports label
  obtain ⟨b2, hcredited⟩ := (s.integrateStreams label).creditDelivery_frame (label - 1)
  have hx := s.handed_kept label
  have htake : s.takeTick = (s.handed label).counted label := by
    rw [State.takeTick, if_pos hrun, htick]
    dsimp only
    rw [State.integrateTick, show (s.integrateStreams label).handOffTick label = s.handed label from rfl, State.counted_eq,
      State.enterWaiting, State.counted_station, hx.station, hcommit]
  have hexec : exec .tickIntegration s = .next ((s.handed label).counted label) := congrArg Host.Outcome.next htake
  generalize hxh : s.handed label = x at *
  rw [State.counted] at hexec
  have himg : x.img = s.img := State.img_congr hx.station
  refine ⟨_, hexec, ?_, rfl, ?_, hx.station, hx.sensor, hx.decls, ?_, ?_, ?_, hx.board, fun j => ?_, ?_, fun i => ?_⟩
  · show x.fiscal.tick = none
    rw [hx.fiscal]
  · show x.clock.ckptTicks + 1 = s.clock.ckptTicks + 1
    rw [hx.clock]
  · show x.alloc.consumers = s.alloc.consumers
    rw [hx.alloc]
  · show x.alloc.band = s.alloc.band
    rw [hx.alloc]
  · show x.clock.time = s.clock.time
    rw [hx.clock]
  · show x.pulses.inputs.get j = _
    rw [hx.pulses]
    exact Table.get_map ..
  · intro metered credited handed
    have hhand : handed = x := hxh
    have hcarry : ∀ i, s.img.present i = true → ((credited.fiscal.streams.get i).last.map LastTick.carry).getD 0 =
        ((s.fiscal.streams.get i).residual + (s.tickOutcome i).increment) / 1000000000 := fun i hi => by
      simp only [credited, metered, hcredited, hmetered, State.integratedStreams_get, if_pos hi]; rfl
    have hcimg : credited.img = s.img := by
      refine State.img_congr ?_
      simp only [credited, metered, hcredited, hmetered]
    refine ⟨by rw [hhand], by rw [hhand], by rw [hhand], by rw [hhand], fun hdue => ?_, ?_, ?_, ?_, ?_, hports,
      fun i hi hk hone => ?_, fun hnone => ?_⟩
    · rw [hhand]
      exact State.counted_store (hx.gatherDue.trans hdue) label
    · simp only [metered, hmetered]
    · simp only [metered, hmetered]
    · simp only [metered, hmetered]
    · simp only [metered, hmetered]
    · rw [State.exportCarry_of_power (by rwa [hcimg]) (by rwa [hcimg]) (by rwa [hcimg]), hcarry i hi]
    · exact State.exportCarry_of_none (by rwa [hcimg])
  · intro u now
    obtain ⟨htotal, hresidual, hlast, herror, hreverse⟩ := (x.countFrame_frame label).2 i
    have hget : x.fiscal.streams.get i = if s.img.present i then u else s.fiscal.streams.get i := by
      rw [hx.fiscal]; exact s.integratedStreams_get label i
    rw [hget] at htotal hresidual hlast herror hreverse
    have hwindow : x.pulses.windows.get i = s.addedWindows.get i := by rw [hx.pulses]
    have hsum : (x.fiscal.streams.get i).frameSum =
        if s.img.present i then u.frameSum else (s.fiscal.streams.get i).frameSum := by
      rw [hget]; split <;> rfl
    have haverage : (x.fiscal.streams.get i).frameAverage = (s.fiscal.streams.get i).frameAverage := by
      rw [hget]; split <;> rfl
    refine ⟨fun hp => ?_, fun hp => ?_, hwindow.trans (s.addedWindows_get i), fun h => ?_, fun count length hop hft =>
      ?_⟩
    · simp only [hp, if_true] at htotal hresidual hlast herror hreverse
      exact ⟨htotal, hresidual, hlast, herror, hreverse⟩
    · simp only [hp, if_false, Bool.false_eq_true] at htotal hresidual hlast
      exact ⟨htotal, hresidual, hlast⟩
    · have hcount := State.countFrame_idle (s := x) (by rw [hx.station, hx.clock]; exact h) label
      have hnow : now = x.fiscal.streams.get i := by
        show (x.countFrame label).fiscal.streams.get i = _
        rw [hcount]
      refine ⟨by rw [hnow, hsum], by rw [hnow, haverage], ?_, ?_⟩
      · show (x.countFrame label).clock.frameTimer = _
        rw [hcount, hx.clock]
      · show (x.countFrame label).alloc.frameDue = _
        rw [hcount, hx.alloc]
    · have hop' : x.station.state = .operating := by rw [hx.station]; exact hop
      have hft' : x.clock.frameTimer = some (count, length) := by rw [hx.clock]; exact hft
      refine ⟨fun hlt => ?_, fun hge => ?_⟩
      · have hcount := State.countFrame_inside hop' hft' hlt label
        have hnow : now = x.fiscal.streams.get i := by
          show (x.countFrame label).fiscal.streams.get i = _
          rw [hcount]
        refine ⟨by rw [hnow, hsum], by rw [hnow, haverage], ?_, ?_⟩
        · show (x.countFrame label).clock.frameTimer = _
          rw [hcount]
        · show (x.countFrame label).alloc.frameDue = _
          rw [hcount, hx.alloc]
      · have hcount := State.countFrame_last hop' hft' hge label
        have hnow : now = { x.fiscal.streams.get i with
            frameSum := 0
            frameAverage :=
              if s.img.present i then (x.fiscal.streams.get i).frameSum * 3600 / (length * 1000000000) else 0 } := by
          show (x.countFrame label).fiscal.streams.get i = _
          rw [hcount, State.averagedStreams, Table.get_mapFin, himg]
        refine ⟨by rw [hnow], by rw [hnow, ← hsum], ?_, ?_⟩
        · show (x.countFrame label).clock.frameTimer = _
          rw [hcount]
        · show (x.countFrame label).alloc.frameDue = _
          rw [hcount]

end Sys2Proof.Machine
end

section

-- One thread per proof would pass the memory limit of the build: each has a stack of its own.
set_option Elab.async false

/-! # Proofs: holder, ladder and flare -/

namespace Sys2Proof.Machine

/-! ### Holder band and term (R76, R78, R79) -/

/-- R76: judged again at the same level, a band stands: each row of the table holds again for the band it gives, and no
row above it comes to hold. -/
theorem nextBand_stable (img : Image) (b : HolderBand) (level : Int) :
    nextBand img (nextBand img b level) level = nextBand img b level := by
  by_cases hhh : img.holderHH ≤ level
  · simp [nextBand, hhh]
  · by_cases hhh' : b = .highhigh ∧ img.holderHH - img.hysteresis < level
    · simp [nextBand, hhh, hhh']
    · by_cases hhi : img.holderHi ≤ level ∨ (b = .high ∨ b = .highhigh) ∧ img.holderHi - img.hysteresis < level
      · have h : nextBand img b level = .high := by
          simp only [nextBand, if_neg hhh, if_neg hhh']
          split
          · rfl
          · exact if_pos (hhi.resolve_left ‹_›)
        have hrow : img.holderHi ≤ level ∨ img.holderHi - img.hysteresis < level := hhi.imp_right And.right
        rw [h]
        simp only [nextBand, if_neg hhh, reduceCtorEq, false_and, if_false, true_or, true_and]
        split
        · rfl
        · exact if_pos (hrow.resolve_left ‹_›)
      · obtain ⟨hhi1, hhi2⟩ := not_or.mp hhi
        by_cases hll : level ≤ img.holderLL ∨ b = .lowlow ∧ level < img.holderLL + img.hysteresis
        · have h : nextBand img b level = .lowlow := by
            simp only [nextBand, if_neg hhh, if_neg hhh', if_neg hhi1, if_neg hhi2]
            split
            · rfl
            · exact if_pos (hll.resolve_left ‹_›)
          have hrow : level ≤ img.holderLL ∨ level < img.holderLL + img.hysteresis := hll.imp_right And.right
          rw [h]
          simp only [nextBand, if_neg hhh, if_neg hhi1, reduceCtorEq, or_self, false_and, if_false, true_and]
          split
          · rfl
          · exact if_pos (hrow.resolve_left ‹_›)
        · obtain ⟨hll1, hll2⟩ := not_or.mp hll
          by_cases hlo : level ≤ img.holderLo ∨ (b = .low ∨ b = .lowlow) ∧ level < img.holderLo + img.hysteresis
          · have h : nextBand img b level = .low := by
              simp only [nextBand, if_neg hhh, if_neg hhh', if_neg hhi1, if_neg hhi2, if_neg hll1, if_neg hll2]
              split
              · rfl
              · exact if_pos (hlo.resolve_left ‹_›)
            have hrow : level ≤ img.holderLo ∨ level < img.holderLo + img.hysteresis := hlo.imp_right And.right
            rw [h]
            simp only [nextBand, if_neg hhh, if_neg hhi1, if_neg hll1, reduceCtorEq, or_self, false_and, if_false, true_or,
              true_and]
            split
            · rfl
            · exact if_pos (hrow.resolve_left ‹_›)
          · obtain ⟨hlo1, hlo2⟩ := not_or.mp hlo
            have h : nextBand img b level = .normal := by
              simp only [nextBand, if_neg hhh, if_neg hhh', if_neg hhi1, if_neg hhi2, if_neg hll1, if_neg hll2, if_neg hlo1,
                if_neg hlo2]
            rw [h]
            simp only [nextBand, if_neg hhh, if_neg hhi1, if_neg hll1, if_neg hlo1, reduceCtorEq, or_self, false_and, if_false]

/-- R78: the quotient rounded toward zero has the sign of the dividend. -/
theorem tdiv_sign (x : Int) (n : Nat) : 0 ≤ (x * 36).tdiv n * x := by
  rcases Int.le_total 0 x with hx | hx
  · exact Int.mul_nonneg (Int.tdiv_nonneg (by omega) (Int.natCast_nonneg n)) hx
  · have hneg : 0 ≤ (-(x * 36)).tdiv n := Int.tdiv_nonneg (by omega) (Int.natCast_nonneg n)
    rw [Int.neg_tdiv] at hneg
    exact mul_nonneg_of_nonpos_of_nonpos (by omega) hx

/-- The quotient of R78. -/
noncomputable def holderQuotient (img : Image) (level cv : Int) : Int := ((level - img.holderTarget) * cv * 36).tdiv (10 * img.tau)

theorem holderTerm_eq (img : Image) (level cv : Int) :
    holderTerm img level cv = max (-(img.hmax : Int)) (min img.hmax (holderQuotient img level cv)) := rfl

/-- The first row that holds, a row at a time. -/
theorem firstRow_cons {α : Type} (P : Prop) [Decidable P] (x d : α) (rows : List (Bool × α)) :
    ((((decide P, x) :: rows).find? Prod.fst).map Prod.snd).getD d =
      if P then x else ((rows.find? Prod.fst).map Prod.snd).getD d := by
  by_cases h : P
  · rw [if_pos h, List.find?_cons_of_pos (p := Prod.fst) (a := (decide P, x)) (decide_eq_true h)]
    rfl
  · rw [if_neg h, List.find?_cons_of_neg (p := Prod.fst) (a := (decide P, x)) (by simpa using h)]

/-- A figure brought within bounds of either sign is the bound it passes, or itself. -/
theorem clamped_eq (m : Nat) (q : Int) : max (-(m : Int)) (min m q) =
    if (m : Int) < q then (m : Int) else if q < -(m : Int) then -(m : Int) else q := by
  have hm : -(m : Int) ≤ m := (Int.neg_nonpos_of_nonneg (Int.natCast_nonneg m)).trans (Int.natCast_nonneg m)
  split
  next h => rw [min_eq_left h.le, max_eq_right hm]
  next h =>
    rw [min_eq_right (not_lt.mp h)]
    split
    next hlow => exact max_eq_left hlow.le
    next hlow => exact max_eq_right (not_lt.mp hlow)

/-- R78: the quotient rounded toward zero is not above 0 when the dividend is not. -/
theorem tdiv_nonpos (x : Int) (n : Nat) (h : x ≤ 0) : x.tdiv n ≤ 0 := by
  have hneg : 0 ≤ (-x).tdiv n := Int.tdiv_nonneg (Int.neg_nonneg_of_nonpos h) (Int.natCast_nonneg n)
  rw [Int.neg_tdiv] at hneg
  exact Int.nonpos_of_neg_nonneg hneg

/-- Settles O27. -/
theorem holderBandAndTerm : Obligations.HolderBandAndTerm := by
  refine ⟨fun img b level => ?_, nextBand_stable, fun img level cv supply hcv => ?_⟩
  · show nextBand img b level = _
    simp only [firstRow_cons]
    rfl
  · have hsign := tdiv_sign ((level - img.holderTarget) * cv) (10 * img.tau)
    have hmax := Int.natCast_nonneg img.hmax
    have hcast : ((10 * img.tau : Nat) : Int) = 10 * (img.tau : Int) := Int.natCast_mul 10 img.tau
    have hq : holderQuotient img level cv = ((level - img.holderTarget) * cv * 36).tdiv (10 * img.tau : Nat) := by
      rw [hcast]; rfl
    refine ⟨⟨holderQuotient img level cv, ?_, ?_, clamped_eq ..⟩,
      max_le ((Int.neg_nonpos_of_nonneg hmax).trans hmax) (min_le_left ..), le_max_left ..,
      fun hl => le_max_of_le_right (le_min hmax ?_), fun hl => max_le (Int.neg_nonpos_of_nonneg hmax) (min_le_of_right_le ?_),
      (Int.toNat_eq_max _).trans (max_comm ..)⟩
    · rw [hq, Int.natAbs_tdiv, Int.natAbs_natCast]
      rfl
    · rwa [hq]
    · rw [← hcast]
      exact Int.tdiv_nonneg (Int.mul_nonneg (Int.mul_nonneg (Int.sub_nonneg_of_le hl) hcv) (by decide)) (Int.natCast_nonneg _)
    · rw [← hcast]
      exact tdiv_nonpos _ _ (Int.mul_nonpos_of_nonpos_of_nonneg
        (Int.mul_nonpos_of_nonpos_of_nonneg (Int.sub_nonpos_of_le hl) hcv) (by decide))

/-! ### Shares of duty fuel (R83) -/

theorem shareFuel_entries (room : Fin 12 → Nat) (order : List (Fin 12)) (fuel : Nat) :
    (shareFuel room fuel order).1.map Prod.fst = order := by
  induction order generalizing fuel with
  | nil => rfl
  | cons e rest ih => rw [shareFuel, List.map_cons, ih]

theorem shareFuel_le (room : Fin 12 → Nat) (order : List (Fin 12)) (fuel : Nat) :
    ∀ x ∈ (shareFuel room fuel order).1, x.2 ≤ room x.1 := by
  induction order generalizing fuel with
  | nil => nofun
  | cons e rest ih =>
    intro x hx
    rcases List.mem_cons.mp hx with rfl | hx
    · exact Nat.min_le_right ..
    · exact ih _ x hx

theorem shareFuel_sum (room : Fin 12 → Nat) (order : List (Fin 12)) (fuel : Nat) :
    ((shareFuel room fuel order).1.map Prod.snd).sum + (shareFuel room fuel order).2 = fuel := by
  induction order generalizing fuel with
  | nil => exact Nat.zero_add _
  | cons e rest ih =>
    rw [shareFuel, List.map_cons, List.sum_cons, Nat.add_assoc, ih]
    exact Nat.add_sub_of_le (Nat.min_le_left ..)

theorem shareFuel_full (room : Fin 12 → Nat) (order : List (Fin 12)) (fuel : Nat)
    (h : 0 < (shareFuel room fuel order).2) : ∀ x ∈ (shareFuel room fuel order).1, x.2 = room x.1 := by
  induction order generalizing fuel with
  | nil => nofun
  | cons e rest ih =>
    have hsum := shareFuel_sum room rest (fuel - min fuel (room e))
    change 0 < (shareFuel room (fuel - min fuel (room e)) rest).2 at h
    intro x hx
    rcases List.mem_cons.mp hx with rfl | hx
    · refine min_eq_right (not_lt.mp fun hlt => ?_)
      rw [min_eq_left hlt.le, Nat.sub_self] at hsum h
      exact h.ne' (Nat.eq_zero_of_add_eq_zero_left hsum)
    · exact ih _ h x hx

/-! ### Targets and the walk (R86, R87) -/

/-- R86: the effective maximum. -/
noncomputable def Consumer.top (c : Consumer) : Nat :=
  match c.cap with
  | some k => min k c.limits.maximum
  | none => c.limits.maximum

theorem Consumer.target_eq (c : Consumer) (request : Nat) : c.target request =
    if c.top < c.limits.minimum then 0
    else
      let t1 := min request c.top
      let t2 := if 0 < c.confirmed ∧ c.confirmed + c.limits.ramp < t1 then c.confirmed + c.limits.ramp else t1
      let t3 := if c.confirmed = 0 ∧ 0 < t2 then
          (if 0 < c.limits.minimum then c.limits.minimum else min t2 c.limits.ramp) else t2
      if 0 < t3 ∧ t3 < c.limits.minimum then c.limits.minimum else t3 := rfl

theorem Consumer.target_of_low {c : Consumer} (h : c.top < c.limits.minimum) (request : Nat) : c.target request = 0 := by
  rw [c.target_eq, if_pos h]

/-- A figure brought down to a bound. -/
theorem lowered_eq (x bound : Nat) : (if bound < x then bound else x) = min x bound := by
  split
  next h => exact (min_eq_right h.le).symm
  next h => exact (min_eq_left (not_lt.mp h)).symm

/-- A figure brought up to the minimum unless it is 0. -/
theorem raised_eq (x least : Nat) : (if 0 < x ∧ x < least then least else x) = if x = 0 then 0 else max least x := by
  rcases Nat.eq_zero_or_pos x with rfl | hx
  · rw [if_neg fun h => absurd h.1 (Nat.lt_irrefl 0), if_pos rfl]
  · rw [if_neg hx.ne']
    split
    next h => exact (max_eq_left h.2.le).symm
    next h => exact (max_eq_right (not_lt.mp fun hlt => h ⟨hx, hlt⟩)).symm

/-- R86: from a confirmed grant above 0. -/
theorem Consumer.target_of_confirmed {c : Consumer} (h : c.limits.minimum ≤ c.top) (hc : 0 < c.confirmed) (request : Nat) :
    c.target request =
      if min (min request c.top) (c.confirmed + c.limits.ramp) = 0 then 0
      else max c.limits.minimum (min (min request c.top) (c.confirmed + c.limits.ramp)) := by
  rw [c.target_eq, if_neg (not_lt.mpr h)]
  simp only [hc, hc.ne', true_and, false_and, if_false, lowered_eq, raised_eq]

/-- R86: from a confirmed grant of 0. -/
theorem Consumer.target_of_unlit {c : Consumer} (h : c.limits.minimum ≤ c.top) (hc : c.confirmed = 0) (request : Nat) :
    c.target request =
      if min request c.top = 0 then 0
      else if 0 < c.limits.minimum then c.limits.minimum else min (min request c.top) c.limits.ramp := by
  rw [c.target_eq, if_neg (not_lt.mpr h)]
  simp only [hc, Nat.lt_irrefl, true_and, false_and, if_false, raised_eq]
  rcases Nat.eq_zero_or_pos (min request c.top) with hw | hw
  · rw [hw, if_neg (Nat.lt_irrefl 0), if_pos rfl, if_pos rfl]
  · rw [if_pos hw, if_neg hw.ne']
    rcases Nat.eq_zero_or_pos c.limits.minimum with hm | hm
    · rw [hm, if_neg (Nat.lt_irrefl 0), Nat.zero_max]
      exact ite_eq_right_iff.mpr Eq.symm
    · rw [if_pos hm, if_neg hm.ne', max_self]

/-- A target is 0, or lies from the minimum to the effective maximum. -/
theorem Consumer.target_bounds (c : Consumer) (request : Nat) :
    (c.target request = 0 ∨ c.limits.minimum ≤ c.target request ∧ c.target request ≤ c.top) ∧
    (c.target request ≤ request ∨ c.target request = c.limits.minimum) ∧
    (0 < c.confirmed → c.target request ≤ c.confirmed + c.limits.ramp ∨ c.target request = c.limits.minimum) ∧
    (request = 0 → c.target request = 0) := by
  by_cases h : c.top < c.limits.minimum
  · rw [c.target_of_low h]
    exact ⟨.inl rfl, .inl (Nat.zero_le _), fun _ => .inl (Nat.zero_le _), fun _ => rfl⟩
  · by_cases hc : c.confirmed = 0
    · rw [c.target_of_unlit (not_lt.mp h) hc]
      have hpos : ¬0 < c.confirmed := hc.not_gt
      rcases Nat.eq_zero_or_pos (min request c.top) with hw | hw
      · rw [if_pos hw]
        exact ⟨.inl rfl, .inl (Nat.zero_le _), fun _ => .inl (Nat.zero_le _), fun _ => rfl⟩
      · rw [if_neg hw.ne']
        have hr : request = 0 → False := fun h0 => hw.ne' (by rw [h0, Nat.zero_min])
        rcases Nat.eq_zero_or_pos c.limits.minimum with hm | hm
        · rw [if_neg hm.not_gt, hm]
          exact ⟨.inr ⟨Nat.zero_le _, (min_le_left ..).trans (min_le_right ..)⟩,
            .inl ((min_le_left ..).trans (min_le_left ..)), fun h => absurd h hpos, fun h0 => (hr h0).elim⟩
        · rw [if_pos hm]
          exact ⟨.inr ⟨le_rfl, not_lt.mp h⟩, .inr rfl, fun h => absurd h hpos, fun h0 => (hr h0).elim⟩
    · rw [c.target_of_confirmed (not_lt.mp h) (Nat.pos_of_ne_zero hc)]
      split
      · exact ⟨.inl rfl, .inl (Nat.zero_le _), fun _ => .inl (Nat.zero_le _), fun _ => rfl⟩
      next hx =>
        refine ⟨.inr ⟨le_max_left .., max_le (not_lt.mp h) ((min_le_left ..).trans (min_le_right ..))⟩, ?_, fun _ => ?_,
          fun h0 => absurd (by rw [h0, Nat.zero_min, Nat.zero_min]) hx⟩
        · exact (max_choice ..).symm.imp_left fun hmax => hmax.le.trans ((min_le_left ..).trans (min_le_left ..))
        · exact (max_choice ..).symm.imp_left fun hmax => hmax.le.trans (min_le_right ..)

theorem walkLadder_entries (consumers : Table Consumer 12) (request : Fin 12 → Nat) (order : List (Fin 12)) (rate : Nat) :
    (walkLadder consumers request rate order).1.map WalkedEntry.entry = order := by
  induction order generalizing rate with
  | nil => rfl
  | cons e rest ih => simp only [walkLadder, List.map_cons, ih]

theorem frameGrant_le (target remaining minimum : Nat) :
    frameGrant target remaining minimum ≤ target ∧ frameGrant target remaining minimum ≤ remaining := by
  unfold frameGrant
  dsimp only
  split
  · exact ⟨Nat.zero_le _, Nat.zero_le _⟩
  · exact ⟨Nat.min_le_left .., Nat.min_le_right ..⟩

theorem walkLadder_sum (consumers : Table Consumer 12) (request : Fin 12 → Nat) (order : List (Fin 12)) (rate : Nat) :
    ((walkLadder consumers request rate order).1.map WalkedEntry.grant).sum +
      (walkLadder consumers request rate order).2 = rate := by
  induction order generalizing rate with
  | nil => exact Nat.zero_add _
  | cons e rest ih =>
    rw [walkLadder, List.map_cons, List.sum_cons, Nat.add_assoc, ih]
    exact Nat.add_sub_of_le (frameGrant_le ..).2

/-- R87: what the walk gives each entry, from what those before it leave. -/
theorem walkLadder_grant (consumers : Table Consumer 12) (request : Fin 12 → Nat) (order : List (Fin 12)) (rate : Nat)
    {before after : List WalkedEntry} {w : WalkedEntry}
    (h : (walkLadder consumers request rate order).1 = before ++ w :: after) :
    w.target = (consumers.get w.entry).target (request w.entry) ∧
    w.grant = frameGrant w.target (rate - (before.map WalkedEntry.grant).sum) (consumers.get w.entry).limits.minimum := by
  induction order generalizing rate before with
  | nil => simp [walkLadder] at h
  | cons e rest ih =>
    rw [walkLadder] at h
    dsimp only at h
    cases before with
    | nil =>
      rw [List.nil_append] at h
      obtain ⟨rfl, -⟩ := List.cons.inj h
      exact ⟨rfl, rfl⟩
    | cons x before =>
      rw [List.cons_append] at h
      obtain ⟨rfl, hrest⟩ := List.cons.inj h
      obtain ⟨ht, hg⟩ := ih _ hrest
      refine ⟨ht, hg.trans ?_⟩
      rw [List.map_cons, List.sum_cons, Nat.sub_sub]

/-- Settles O28. -/
theorem ladderArithmetic : Obligations.LadderArithmetic := by
  refine ⟨fun room fuel order => ⟨shareFuel_entries .., shareFuel_le room order fuel,
      shareFuel_sum .., shareFuel_full room order fuel⟩,
    fun c request => ?_, fun consumers request rate order => ?_⟩
  · obtain ⟨h1, h2, h3, h4⟩ := c.target_bounds request
    exact ⟨h1, h2, h3, h4, fun h => c.target_of_low h request,
      fun h hc hr => (c.target_of_unlit h hc request).trans (if_neg (Nat.pos_iff_ne_zero.mp hr)),
      fun h hc => c.target_of_confirmed h hc request⟩
  · refine ⟨walkLadder_entries .., walkLadder_sum .., fun w hw => ?_, fun before w after h =>
      (walkLadder_grant consumers request order rate h).2⟩
    obtain ⟨before, after, h⟩ := List.append_of_mem hw
    obtain ⟨ht, hg⟩ := walkLadder_grant consumers request order rate h
    refine ⟨ht, ?_⟩
    rw [hg]
    unfold frameGrant
    dsimp only
    split
    · exact .inl rfl
    next h => exact (Nat.eq_zero_or_pos _).imp_right fun hpos => ⟨not_lt.mp fun hlt => h ⟨hpos, hlt⟩, Nat.min_le_left ..⟩

end Sys2Proof.Machine
end

section

-- One thread per proof would pass the memory limit of the build: each has a stack of its own.
set_option Elab.async false

/-! # Proofs: the frame -/

namespace Sys2Proof

/-- A sum over a table's entries is one over its indices. -/
theorem Table.sum_map {α : Type} {n : Nat} (t : Table α n) (f : α → Nat) :
    (t.entries.map f).sum = ∑ i, f (t.get i) := by
  have h : t.entries = List.ofFn t.get := by
    refine List.ext_getElem (by simp [t.size]) fun i h1 h2 => ?_
    simp [Table.get]
  rw [h, List.map_ofFn, List.sum_ofFn]
  rfl

end Sys2Proof

namespace Sys2Proof.Machine

/-! ### Ladder order (R86) -/

/-- From a pointer, a turn through the entries meets each once. -/
theorem turn_nodup (p : Fin 12) : ((List.range 12).map fun k => Fin.ofNat 12 (p.val + k)).Nodup := by
  revert p; decide

theorem mem_turn (p e : Fin 12) : e ∈ (List.range 12).map fun k => Fin.ofNat 12 (p.val + k) := by
  revert p e; decide

theorem State.rotationOrder_nodup (s : State) (r : Fin 8) : (s.rotationOrder r).Nodup :=
  (turn_nodup _).filter _

theorem State.mem_rotationOrder (s : State) (r : Fin 8) (e : Fin 12) :
    e ∈ s.rotationOrder r ↔ (s.img.operator e).isSome = true ∧ s.img.rank e = r.val := by
  rw [State.rotationOrder, List.mem_filter, Bool.and_eq_true, beq_iff_eq]
  exact and_iff_right (mem_turn _ e)

theorem State.ladder_nodup (s : State) : s.ladder.Nodup := by
  refine List.nodup_flatMap.mpr ⟨fun r _ => s.rotationOrder_nodup r, ?_⟩
  refine (List.nodup_finRange 8).imp fun {a b} hab => ?_
  intro e ha hb
  have h1 := ((s.mem_rotationOrder a e).mp ha).2
  have h2 := ((s.mem_rotationOrder b e).mp hb).2
  exact hab (Fin.ext (h1.symm.trans h2))

theorem Image.rank_lt (img : Image) (e : Fin 12) : img.rank e < 8 := (indexOf 7 _).isLt

theorem State.mem_ladder (s : State) (e : Fin 12) : e ∈ s.ladder ↔ (s.img.operator e).isSome = true := by
  rw [State.ladder, List.mem_flatMap]
  constructor
  · rintro ⟨r, -, hr⟩
    exact ((s.mem_rotationOrder r e).mp hr).1
  · exact fun h => ⟨⟨s.img.rank e, s.img.rank_lt e⟩, List.mem_finRange _, (s.mem_rotationOrder _ e).mpr ⟨h, rfl⟩⟩

/-! ### The outcome of the walk -/

theorem walkedAt_cons (w : WalkedEntry) (l : List WalkedEntry) (e : Fin 12) :
    walkedAt (w :: l) e = if w.entry = e then some w else walkedAt l e := by
  rw [walkedAt, List.find?_cons]
  by_cases h : w.entry = e
  · simp [h]
  · rw [beq_false_of_ne h, if_neg h]; rfl

theorem walkedAt_isSome {l : List WalkedEntry} {e : Fin 12} : (walkedAt l e).isSome = true ↔ e ∈ l.map WalkedEntry.entry := by
  simp only [walkedAt, List.find?_isSome, beq_iff_eq, List.mem_map]

theorem walkedAt_entry {l : List WalkedEntry} {e : Fin 12} {w : WalkedEntry} (h : walkedAt l e = some w) : w.entry = e := by
  simpa using List.find?_some h

/-- The grant of the walk for an entry, 0 where it has none. -/
noncomputable def grantAt (l : List WalkedEntry) (e : Fin 12) : Nat := ((walkedAt l e).map WalkedEntry.grant).getD 0

/-- Where no entry is walked twice, the grants by entry make the grants of the walk. -/
theorem sum_grantAt {l : List WalkedEntry} (h : (l.map WalkedEntry.entry).Nodup) :
    ∑ e, grantAt l e = (l.map WalkedEntry.grant).sum := by
  induction l with
  | nil => exact Finset.sum_const_zero
  | cons w l ih =>
    obtain ⟨hw, hl⟩ := List.nodup_cons.mp h
    have hnone : grantAt l w.entry = 0 := by
      have : ¬(walkedAt l w.entry).isSome = true := fun hs => hw (walkedAt_isSome.mp hs)
      rw [grantAt, Option.not_isSome_iff_eq_none.mp this]; rfl
    have hsplit : ∀ e, grantAt (w :: l) e = (if w.entry = e then w.grant else 0) + grantAt l e := by
      intro e
      by_cases he : w.entry = e
      · subst he
        rw [hnone, grantAt, walkedAt_cons, if_pos rfl, if_pos rfl]; rfl
      · rw [grantAt, walkedAt_cons, if_neg he, if_neg he, Nat.zero_add]; rfl
    rw [List.map_cons, List.sum_cons, ← ih hl, Finset.sum_congr rfl fun e _ => hsplit e, Finset.sum_add_distrib,
      Finset.sum_ite_eq, if_pos (Finset.mem_univ _)]

/-! ### The hand-over (R90, R98, R99) -/

theorem Consumer.mustPost_eq_true_iff (c : Consumer) (g : Nat) : c.mustPost g = true ↔
    g = 0 ∧ c.confirmed ≠ 0 ∨ g ≠ 0 ∧ c.confirmed = 0 ∨ c.limits.threshold ≤ ((g : Int) - c.confirmed).natAbs := by
  unfold Consumer.mustPost
  rw [max_sub_min, Bool.or_eq_true, decide_eq_true_eq, ← or_assoc]
  refine or_congr_left ?_
  by_cases h1 : g = 0 <;> by_cases h2 : c.confirmed = 0 <;> simp [h1, h2]

theorem State.handGrant_same {s : State} {e : Fin 12} {g : Nat} (h : g = (s.consumer e).confirmed) : s.handGrant e g = s :=
  if_pos h

theorem State.handGrant_posts {s : State} {e : Fin 12} {g : Nat} (h : g ≠ (s.consumer e).confirmed)
    (hp : (s.consumer e).mustPost g = true) : s.handGrant e g =
      (s.setConsumer e ((s.consumer e).posting g s.img.confirmationTime)).post (s.img.operator e).toList .grant e.val
        (BitVec.ofNat 32 g) 0 (((s.consumer e).id + 1) % 256) := by
  rw [State.handGrant]
  dsimp only
  rw [if_neg h, if_pos hp, State.postGrant, State.setConsumer_img]; rfl

theorem State.handGrant_absorbs {s : State} {e : Fin 12} {g : Nat} (h : g ≠ (s.consumer e).confirmed)
    (hp : ¬(s.consumer e).mustPost g = true) :
    s.handGrant e g = s.setConsumer e { s.consumer e with confirmed := g }.settle := by
  rw [State.handGrant]
  dsimp only
  rw [if_neg h, if_neg hp]

/-- Settles O31: by whether the frame grant must be confirmed. -/
theorem frameGrantsArePostedOrAbsorbed : Obligations.FrameGrantsArePostedOrAbsorbed := by
  intro s e g c due
  refine ⟨fun h => State.handGrant_same h, fun h hdue => State.handGrant_posts h ((c.mustPost_eq_true_iff g).mpr hdue),
    fun h hdue => ?_⟩
  have hnot : ¬c.mustPost g = true := mt (c.mustPost_eq_true_iff g).mp hdue
  have hg : g ≠ 0 := by
    intro h0
    by_cases hc : c.confirmed = 0
    · exact h (h0.trans hc.symm)
    · exact hdue (.inl ⟨h0, hc⟩)
  rw [State.handGrant_absorbs h hnot, Consumer.settle, if_neg hg]

/-- A grant handed over is in force, whether posted or absorbed. -/
theorem State.handGrant_inForce {s : State} {e : Fin 12} (h : (s.consumer e).state ≠ .changing) (g : Nat) :
    ((s.handGrant e g).consumer e).inForce = g := by
  by_cases hg : g = (s.consumer e).confirmed
  · rw [State.handGrant_same hg, Consumer.inForce, if_neg h, hg]
  · by_cases hp : (s.consumer e).mustPost g = true
    · rw [State.handGrant_posts hg hp, State.post_consumer, State.setConsumer_consumer]; rfl
    · rw [State.handGrant_absorbs hg hp, State.setConsumer_consumer, Consumer.inForce, if_neg]
      · rfl
      · rw [Consumer.settle]
        dsimp only
        split <;> nofun

/-- What a grant makes of its consumer depends on that consumer and the image alone. -/
theorem State.handGrant_consumer_congr {s t : State} {e : Fin 12} (hc : s.consumer e = t.consumer e)
    (hst : s.station = t.station) (g : Nat) : (s.handGrant e g).consumer e = (t.handGrant e g).consumer e := by
  by_cases hg : g = (s.consumer e).confirmed
  · rw [State.handGrant_same hg, State.handGrant_same (hc ▸ hg), hc]
  · by_cases hp : (s.consumer e).mustPost g = true
    · rw [State.handGrant_posts hg hp, State.handGrant_posts (hc ▸ hg) (hc ▸ hp)]
      simp only [State.post_consumer, State.setConsumer_consumer, hc, State.img_congr hst]
    · rw [State.handGrant_absorbs hg hp, State.handGrant_absorbs (hc ▸ hg) (hc ▸ hp)]
      simp only [State.setConsumer_consumer, hc]

/-- One consumer's turn in the hand-over. -/
noncomputable def State.handOne (f : FrameSummary) (s : State) (e : Fin 12) : State :=
  match (f.outcomes.get e).grant with
  | some g => s.handGrant e g
  | none => s

theorem State.handOver_eq (s : State) (f : FrameSummary) : s.handOver f = (List.finRange 12).foldl (State.handOne f) s := rfl

theorem State.handOne_station (f : FrameSummary) (s : State) (e : Fin 12) : (s.handOne f e).station = s.station := by
  unfold State.handOne
  split
  · exact State.handGrant_station ..
  · rfl

theorem State.handOne_consumer_ne (f : FrameSummary) (s : State) {e d : Fin 12} (h : d ≠ e) :
    (s.handOne f e).consumer d = s.consumer d := by
  unfold State.handOne
  split
  · exact s.handGrant_consumer_ne _ h
  · rfl

theorem State.handOne_consumer_congr (f : FrameSummary) {s t : State} {e : Fin 12} (hc : s.consumer e = t.consumer e)
    (hst : s.station = t.station) : (s.handOne f e).consumer e = (t.handOne f e).consumer e := by
  unfold State.handOne
  split
  · exact State.handGrant_consumer_congr hc hst _
  · exact hc

theorem foldl_handOne_consumer_of_not_mem (f : FrameSummary) {l : List (Fin 12)} {e : Fin 12} (h : e ∉ l) (s : State) :
    (l.foldl (State.handOne f) s).consumer e = s.consumer e := by
  induction l generalizing s with
  | nil => rfl
  | cons d l ih =>
    obtain ⟨hd, hl⟩ := not_or.mp (mt List.mem_cons.mpr h)
    rw [List.foldl_cons, ih hl, State.handOne_consumer_ne f s hd]

theorem foldl_handOne_consumer (f : FrameSummary) {l : List (Fin 12)} {e : Fin 12} (hl : l.Nodup) (h : e ∈ l) (s : State) :
    (l.foldl (State.handOne f) s).consumer e = (s.handOne f e).consumer e := by
  induction l generalizing s with
  | nil => cases h
  | cons d l ih =>
    obtain ⟨hd, hl⟩ := List.nodup_cons.mp hl
    rw [List.foldl_cons]
    rcases List.mem_cons.mp h with rfl | h
    · exact foldl_handOne_consumer_of_not_mem f hd _
    · have hne : e ≠ d := fun he => hd (he ▸ h)
      rw [ih hl h]
      exact State.handOne_consumer_congr f (s.handOne_consumer_ne f hne) (s.handOne_station f d)

/-- R90: each entry with a frame grant is handed it, and no other consumer changes. -/
theorem State.handOver_consumer (s : State) (f : FrameSummary) (e : Fin 12) :
    (s.handOver f).consumer e = (s.handOne f e).consumer e :=
  foldl_handOne_consumer f (List.nodup_finRange 12) (List.mem_finRange e) s

/-! ### What the frame changes on its way to the hand-over -/

@[simp] theorem State.judgeBand_consumer (s : State) (b : HolderBand) (l : Int) (e : Fin 12) :
    (s.judgeBand b l).consumer e = s.consumer e := by
  unfold State.judgeBand
  dsimp only
  split
  · rfl
  · rw [State.post_consumer]; rfl

@[simp] theorem State.setFlare_consumer (s : State) (n : Nat) (e : Fin 12) : (s.setFlare n).consumer e = s.consumer e := by
  unfold State.setFlare
  dsimp only
  split
  · rw [State.post_consumer]; rfl
  · rfl

@[simp] theorem State.askFlag_consumer (s : State) (f : Fin 8) (v : Bool) (e : Fin 12) :
    (s.askFlag f v).consumer e = s.consumer e := by
  obtain ⟨p, x, h⟩ := s.askFlag_frame f v
  rw [h]; rfl

@[simp] theorem State.holderFlags_consumer (s : State) (b : HolderBand) (e : Fin 12) :
    (s.holderFlags b).consumer e = s.consumer e := by
  unfold State.holderFlags
  cases b <;> simp

/-- The state as the frame's own changes leave it, before the hand-over. -/
noncomputable def State.framed (s : State) (label : Nat) : State :=
  let number := nextFrameNumber s.alloc.frameNumber
  let f := s.frameSummary label number s.powerDutyFuel
  let s1 := s.mapTracker fun t => { t with fuel := some ⟨f.powerFuel, number⟩ }
  let s2 := s1.judgeBand f.band f.level
  let s3 := s2.mapAlloc fun a => { a with frameNumber := number, pointers := f.pointers }
  (s3.setFlare f.flare).holderFlags f.band

/-- The summary of the frame that runs now. -/
noncomputable def State.thisFrame (s : State) (label : Nat) : FrameSummary :=
  s.frameSummary label (nextFrameNumber s.alloc.frameNumber) s.powerDutyFuel

theorem State.runFrame_eq (s : State) (label : Nat) : s.runFrame label =
    ((s.framed label).handOver (s.thisFrame label)).mapAlloc fun a => { a with summary := some (s.thisFrame label) } := rfl

theorem State.framed_consumer (s : State) (label : Nat) (e : Fin 12) : (s.framed label).consumer e = s.consumer e := by
  simp only [State.framed, State.holderFlags_consumer, State.setFlare_consumer]
  show ((s.mapTracker _).judgeBand _ _).consumer e = _
  rw [State.judgeBand_consumer]; rfl

theorem State.framed_station (s : State) (label : Nat) : (s.framed label).station = s.station := by
  simp [State.framed]

/-- R90: the consumers after a frame. -/
theorem State.runFrame_consumer (s : State) (label : Nat) (e : Fin 12) :
    (s.runFrame label).consumer e = (s.handOne (s.thisFrame label) e).consumer e := by
  rw [State.runFrame_eq]
  show ((s.framed label).handOver _).consumer e = _
  rw [State.handOver_consumer]
  exact State.handOne_consumer_congr _ (s.framed_consumer label e) (s.framed_station label)

/-! ### The bound of R91 -/

/-- The walk of a frame (R86, R87). -/
noncomputable def State.frameWalk (s : State) (label number fuel : Nat) : List WalkedEntry × Nat :=
  let f := s.frameSummary label number fuel
  walkLadder s.alloc.consumers
    (fun e => s.declInUse (requestDecl e) + (f.outcomes.get e).share + (f.outcomes.get e).passedIn)
    (f.distributable - f.held) (s.ladder.filter (s.walkable f.band))

theorem State.frameSummary_remainder (s : State) (label number fuel : Nat) :
    (s.frameSummary label number fuel).remainder = (s.frameWalk label number fuel).2 := by
  simp only [State.frameWalk, State.frameSummary, Table.get_ofFn]

theorem State.frameWalk_sum (s : State) (label number fuel : Nat) :
    ((s.frameWalk label number fuel).1.map WalkedEntry.grant).sum + (s.frameWalk label number fuel).2 =
      (s.frameSummary label number fuel).distributable - s.heldSum := walkLadder_sum ..

/-- R88: the frame grant of an entry by its disposition. -/
theorem State.frameSummary_grant (s : State) (label number fuel : Nat) (e : Fin 12) :
    ((s.frameSummary label number fuel).outcomes.get e).grant =
      match s.disposition (s.frameSummary label number fuel).band e with
      | .walked => (walkedAt (s.frameWalk label number fuel).1 e).map WalkedEntry.grant
      | .parked => some 0
      | .ineligible => some 0
      | .shed => some 0
      | _ => none := by
  simp only [State.frameWalk, State.frameSummary, Table.get_ofFn] <;> rfl

/-- What holds when a disposition is given (R80). -/
theorem State.disposition_absent {s : State} {band : HolderBand} {e : Fin 12} (h : s.disposition band e = .absent) :
    s.img.operator e = none ∨ (s.consumer e).state = .out := by
  unfold State.disposition at h
  dsimp only at h
  split at h
  case isTrue ho => exact ho.imp_left fun h => by simpa using h
  case isFalse => split_ifs at h

/-- An entry that is neither ABSENT nor TRIPPED nor HELD is present, and its consumer READY or RUNNING. -/
theorem State.disposition_settled {s : State} {band : HolderBand} {e : Fin 12} (ha : s.disposition band e ≠ .absent)
    (ht : s.disposition band e ≠ .tripped) (hh : s.disposition band e ≠ .held) :
    (s.img.operator e).isSome = true ∧ (s.consumer e).state ≠ .unresponsive ∧ (s.consumer e).state ≠ .changing := by
  unfold State.disposition at ha ht hh
  dsimp only at ha ht hh
  split at ha
  case isTrue => exact absurd rfl ha
  case isFalse h1 =>
    rw [if_neg h1] at ht hh
    split at ht
    case isTrue => exact absurd rfl ht
    case isFalse h2 =>
      rw [if_neg h2] at hh
      split at hh
      case isTrue => exact absurd rfl hh
      case isFalse h3 =>
        obtain ⟨h4, h5⟩ := not_or.mp h3
        obtain ⟨h6, -⟩ := not_or.mp h1
        exact ⟨by cases h : s.img.operator e <;> simp_all, h4, h5⟩

theorem Consumer.holds_of_settled {c : Consumer} (hu : c.state ≠ .unresponsive) (hc : c.state ≠ .changing) : c.holds = 0 := by
  unfold Consumer.holds
  split
  case h_1 h => exact absurd h hc
  case h_2 h => exact absurd h hu
  case h_3 => rfl

/-- A TRIPPED or HELD entry has a consumer in a state of that name. -/
theorem State.disposition_tripped {s : State} {band : HolderBand} {e : Fin 12} (h : s.disposition band e = .tripped) :
    (s.consumer e).state = .tripped := by
  unfold State.disposition at h
  dsimp only at h
  split_ifs at h with _ h2
  exact h2

theorem State.disposition_held {s : State} {band : HolderBand} {e : Fin 12} (h : s.disposition band e = .held) :
    (s.consumer e).state = .unresponsive ∨ (s.consumer e).state = .changing := by
  unfold State.disposition at h
  dsimp only at h
  split_ifs at h with _ _ h3
  exact h3

/-- An entry with a disposition that gives it a frame grant has that grant in force after the frame, and held none. -/
theorem State.handOne_inForce_of_grant {s : State} {f : FrameSummary} {e : Fin 12} {band : HolderBand} {g : Nat}
    (hg : (f.outcomes.get e).grant = some g) (ha : s.disposition band e ≠ .absent) (ht : s.disposition band e ≠ .tripped)
    (hh : s.disposition band e ≠ .held) : ((s.handOne f e).consumer e).inForce = (s.consumer e).holds + g := by
  obtain ⟨-, hu, hc⟩ := State.disposition_settled ha ht hh
  rw [State.handOne, hg]
  dsimp only
  rw [State.handGrant_inForce hc, Consumer.holds_of_settled hu hc, Nat.zero_add]

/-- A consumer with no frame grant has in force what the frame held for it. -/
theorem State.handOne_inForce_of_none {s : State} (h : GrantsWf s) {f : FrameSummary} {e : Fin 12} {band : HolderBand}
    (hg : (f.outcomes.get e).grant = none)
    (hd : s.disposition band e = .absent ∨ s.disposition band e = .tripped ∨ s.disposition band e = .held) :
    ((s.handOne f e).consumer e).inForce = (s.consumer e).holds := by
  obtain ⟨hout, hset, -⟩ := h
  have hzero : (s.consumer e).state = .out ∨ (s.consumer e).state = .ready ∨ (s.consumer e).state = .tripped →
      (s.consumer e).confirmed = 0 := (hset e).1
  rw [State.handOne, hg]
  dsimp only
  rcases hd with hd | hd | hd
  · have ho : (s.consumer e).state = .out := (State.disposition_absent hd).elim (hout e) id
    simp [Consumer.inForce, Consumer.holds, ho, hzero (.inl ho)]
  · have ht := State.disposition_tripped hd
    simp [Consumer.inForce, Consumer.holds, ht, hzero (.inr (.inr ht))]
  · rcases State.disposition_held hd with hu | hc
    · simp [Consumer.inForce, Consumer.holds, hu]
    · simp [Consumer.inForce, Consumer.holds, hc]

/-- The walk takes the present entries whose disposition is WALKED. -/
theorem State.walkedAt_frameWalk (s : State) (label number fuel : Nat) (e : Fin 12) :
    (walkedAt (s.frameWalk label number fuel).1 e).isSome = true ↔
      (s.img.operator e).isSome = true ∧ s.disposition (s.frameSummary label number fuel).band e = .walked := by
  rw [walkedAt_isSome, State.frameWalk, walkLadder_entries, List.mem_filter, State.mem_ladder, State.walkable, beq_iff_eq]

/-- R79, R91: after the frame each consumer has in force what it held, and what the walk gave it. -/
theorem State.handOne_inForce {s : State} (h : GrantsWf s) (label number fuel : Nat) (e : Fin 12) :
    ((s.handOne (s.frameSummary label number fuel) e).consumer e).inForce =
      (s.consumer e).holds + grantAt (s.frameWalk label number fuel).1 e := by
  have hnowalk : s.disposition (s.frameSummary label number fuel).band e ≠ .walked →
      grantAt (s.frameWalk label number fuel).1 e = 0 := fun hd => by
    have hnone : walkedAt (s.frameWalk label number fuel).1 e = none :=
      Option.not_isSome_iff_eq_none.mp fun hs => hd ((s.walkedAt_frameWalk label number fuel e).mp hs).2
    rw [grantAt, hnone]; rfl
  have hgrant := s.frameSummary_grant label number fuel e
  cases hd : s.disposition (s.frameSummary label number fuel).band e with
  | walked =>
    obtain ⟨hop, -, -⟩ := State.disposition_settled (by rw [hd]; nofun) (by rw [hd]; nofun) (by rw [hd]; nofun)
    obtain ⟨w, hw⟩ := Option.isSome_iff_exists.mp ((s.walkedAt_frameWalk label number fuel e).mpr ⟨hop, hd⟩)
    rw [hd, hw] at hgrant
    rw [State.handOne_inForce_of_grant hgrant (by rw [hd]; nofun) (by rw [hd]; nofun) (by rw [hd]; nofun), grantAt, hw]
    rfl
  | absent | tripped | held =>
    rw [hd] at hgrant
    rw [State.handOne_inForce_of_none h hgrant (band := (s.frameSummary label number fuel).band) (by simp [hd]), hnowalk (by rw [hd]; nofun), Nat.add_zero]
  | parked | ineligible | shed =>
    rw [hd] at hgrant
    rw [State.handOne_inForce_of_grant hgrant (by rw [hd]; nofun) (by rw [hd]; nofun) (by rw [hd]; nofun),
      hnowalk (by rw [hd]; nofun)]

theorem flareDemand_le (img : Image) (band : HolderBand) (n : Nat) : flareDemand img band n ≤ n := by
  unfold flareDemand
  split <;> omega

/-- The grants in force after a frame are the held sum and what the walk gave. -/
theorem State.runFrame_inForceSum {s : State} (h : GrantsWf s) (label : Nat) : (s.runFrame label).inForceSum =
    s.heldSum + ((s.frameWalk label (nextFrameNumber s.alloc.frameNumber) s.powerDutyFuel).1.map WalkedEntry.grant).sum := by
  have hnodup : ((s.frameWalk label (nextFrameNumber s.alloc.frameNumber) s.powerDutyFuel).1.map WalkedEntry.entry).Nodup := by
    rw [State.frameWalk, walkLadder_entries]
    exact s.ladder_nodup.filter _
  have heach : ∀ e, ((s.runFrame label).alloc.consumers.get e).inForce = (s.alloc.consumers.get e).holds +
      grantAt (s.frameWalk label (nextFrameNumber s.alloc.frameNumber) s.powerDutyFuel).1 e := fun e =>
    (congrArg _ (s.runFrame_consumer label e)).trans (State.handOne_inForce h _ _ _ e)
  rw [State.inForceSum, State.heldSum, Table.sum_map, Table.sum_map, ← sum_grantAt hnodup, ← Finset.sum_add_distrib]
  exact Finset.sum_congr rfl fun e _ => heach e

/-! ### A frame completion -/

/-- The frame mark taken away: what the frame runs on. -/
noncomputable def State.frameTaken (s : State) : State := s.mapAlloc fun a => { a with frameDue := none }

theorem exec_frameCompletion {s : State} {label : Nat} (h : s.dueFrame = some label) :
    exec .frameCompletion s = .next (s.frameTaken.runFrame label) := by
  have htake : s.takeFrameCompletion = s.frameTaken.runFrame label := by
    rw [State.takeFrameCompletion, h]; rfl
  rw [← htake]; rfl

theorem State.askFlag_flag (s : State) (f g : Fin 8) (v : Bool) :
    ((s.askFlag f v).alloc.flags.get g).set = if f = g then v else (s.alloc.flags.get g).set := by
  unfold State.askFlag
  by_cases hv : (s.alloc.flags.get f).set = v
  · rw [if_pos hv]
    by_cases hg : f = g
    · rw [if_pos hg, ← hv, hg]
    · rw [if_neg hg]
  · rw [if_neg hv, State.post_alloc, State.mapAlloc_alloc]
    dsimp only
    rw [Table.get_set]
    split
    · rfl
    · rfl

/-- F4 and F5 follow the band (R69). -/
theorem State.holderFlags_flags (s : State) (b : HolderBand) :
    ((s.holderFlags b).alloc.flags.get 4).set = (b == .high || b == .highhigh) ∧
    ((s.holderFlags b).alloc.flags.get 5).set = (b == .low || b == .lowlow) := by
  cases b <;> simp [State.holderFlags, State.askFlag_flag, flagHigh, flagLow]

/-- The flags in the order in which a frame asks for them (R69). -/
noncomputable def askedFlags (b : HolderBand) : List (Fin 8 × Bool) :=
  if b = .high ∨ b = .highhigh then [(5, false), (4, true)]
  else if b = .low ∨ b = .lowlow then [(4, false), (5, true)] else [(4, false), (5, false)]

theorem State.holderFlags_eq (s : State) (b : HolderBand) :
    s.holderFlags b = (askedFlags b).foldl (fun (u : State) x => u.askFlag x.1 x.2) s := by
  cases b <;> rfl

theorem foldl_askFlag_frame (l : List (Fin 8 × Bool)) (s : State) :
    ∃ p x, l.foldl (fun (u : State) x => u.askFlag x.1 x.2) s = { s with ports := p, alloc := { s.alloc with flags := x } } := by
  induction l generalizing s with
  | nil => exact ⟨_, _, rfl⟩
  | cons a l ih =>
    obtain ⟨p, x, h⟩ := s.askFlag_frame a.1 a.2
    obtain ⟨p', x', h'⟩ := ih (s.askFlag a.1 a.2)
    exact ⟨p', x', by rw [List.foldl_cons, h', h]⟩

theorem State.holderFlags_frame (s : State) (b : HolderBand) :
    ∃ p x, s.holderFlags b = { s with ports := p, alloc := { s.alloc with flags := x } } ∧
      (x.get 4).set = (b == .high || b == .highhigh) ∧ (x.get 5).set = (b == .low || b == .lowlow) := by
  have hflags := s.holderFlags_flags b
  obtain ⟨p, x, h⟩ := foldl_askFlag_frame (askedFlags b) s
  rw [← State.holderFlags_eq] at h
  rw [h] at hflags
  exact ⟨p, x, h, hflags⟩

theorem State.judgeBand_frame (s : State) (b : HolderBand) (l : Int) :
    ∃ p, s.judgeBand b l = { s with ports := p, alloc := { s.alloc with band := b } } := by
  unfold State.judgeBand
  dsimp only
  split
  · exact ⟨s.ports, rfl⟩
  · obtain ⟨p, h⟩ := State.post_frame (s.mapAlloc fun a => { a with band := b }) [.works, .plant] .holderBand b.code (noticeInt l) 0 0
    exact ⟨p, h⟩

/-- The flare figure reported after a frame (R92). -/
noncomputable def State.flareReported (s : State) (n : Nat) : Nat :=
  if flareMoves s.img.flareThreshold s.alloc.reportedFlare n then n else s.alloc.reportedFlare

theorem State.setFlare_frame (s : State) (n : Nat) : ∃ p, s.setFlare n =
    { s with ports := p, alloc := { s.alloc with flare := n, reportedFlare := s.flareReported n } } := by
  unfold State.setFlare State.flareReported
  dsimp only
  split
  · obtain ⟨p, h⟩ := State.post_frame ((s.mapAlloc fun a => { a with flare := n }).mapAlloc fun a => { a with reportedFlare := n })
      [.works] .flare 0 (fit32 0 4294967295 Config.wideWord n) 0 0
    exact ⟨p, h⟩
  · exact ⟨s.ports, rfl⟩

/-- What the frame's own changes leave, but for ports and flags. -/
theorem State.framed_frame (s : State) (label : Nat) : ∃ p y, s.framed label =
    { s with
      ports := p
      tracker := { s.tracker with fuel := some ⟨s.powerDutyFuel, nextFrameNumber s.alloc.frameNumber⟩ }
      alloc := { s.alloc with
        band := (s.thisFrame label).band
        frameNumber := nextFrameNumber s.alloc.frameNumber
        pointers := (s.thisFrame label).pointers
        flare := (s.thisFrame label).flare
        reportedFlare := s.flareReported (s.thisFrame label).flare
        flags := y } } ∧
      (y.get 4).set = ((s.thisFrame label).band == .high || (s.thisFrame label).band == .highhigh) ∧
      (y.get 5).set = ((s.thisFrame label).band == .low || (s.thisFrame label).band == .lowlow) := by
  obtain ⟨p1, h1⟩ := State.judgeBand_frame
    (s.mapTracker fun t => { t with fuel := some ⟨s.powerDutyFuel, nextFrameNumber s.alloc.frameNumber⟩ })
    (s.thisFrame label).band (s.thisFrame label).level
  have hsplit : s.framed label = (((State.judgeBand (s.mapTracker fun t =>
      { t with fuel := some ⟨s.powerDutyFuel, nextFrameNumber s.alloc.frameNumber⟩ })
      (s.thisFrame label).band (s.thisFrame label).level).mapAlloc fun a =>
        { a with frameNumber := nextFrameNumber s.alloc.frameNumber, pointers := (s.thisFrame label).pointers }).setFlare
          (s.thisFrame label).flare).holderFlags (s.thisFrame label).band := rfl
  rw [hsplit, h1]
  obtain ⟨p2, h2⟩ := State.setFlare_frame (State.mapAlloc
    { s.mapTracker fun t => { t with fuel := some ⟨s.powerDutyFuel, nextFrameNumber s.alloc.frameNumber⟩ } with
      ports := p1, alloc := { s.alloc with band := (s.thisFrame label).band } } fun a =>
        { a with frameNumber := nextFrameNumber s.alloc.frameNumber, pointers := (s.thisFrame label).pointers })
    (s.thisFrame label).flare
  have h2' := (congrArg (fun t => State.holderFlags t (s.thisFrame label).band) h2)
  obtain ⟨p3, y, h3, hhigh, hlow⟩ := State.holderFlags_frame _ (s.thisFrame label).band
  exact ⟨p3, y, h2'.trans h3, hhigh, hlow⟩

/-- What a frame leaves of the state and of the allocation, but for ports, consumers and flags. -/
theorem State.runFrame_frame (s : State) (label : Nat) : ∃ p x y, s.runFrame label =
    { s with
      ports := p
      tracker := { s.tracker with fuel := some ⟨s.powerDutyFuel, nextFrameNumber s.alloc.frameNumber⟩ }
      alloc := { s.alloc with
        band := (s.thisFrame label).band
        frameNumber := nextFrameNumber s.alloc.frameNumber
        pointers := (s.thisFrame label).pointers
        flare := (s.thisFrame label).flare
        reportedFlare := s.flareReported (s.thisFrame label).flare
        summary := some (s.thisFrame label)
        consumers := x
        flags := y } } ∧
      (y.get 4).set = ((s.thisFrame label).band == .high || (s.thisFrame label).band == .highhigh) ∧
      (y.get 5).set = ((s.thisFrame label).band == .low || (s.thisFrame label).band == .lowlow) := by
  obtain ⟨q, y, hframed, hflags⟩ := s.framed_frame label
  obtain ⟨p, x, hover⟩ := (s.framed label).handOver_frame (s.thisFrame label)
  refine ⟨p, x, y, ?_, hflags⟩
  rw [State.runFrame_eq, hover, hframed]; rfl

/-- Settles O29: each consumer holds or is given what is in force for it, and the flare demand is of what the walk leaves. -/
theorem grantsAndFlareAreBounded : Obligations.GrantsAndFlareAreBounded := by
  intro s label h hdue
  obtain ⟨p, x, y, hframe, -⟩ := s.frameTaken.runFrame_frame label
  refine ⟨_, s.frameTaken.thisFrame label, exec_frameCompletion hdue,
    congrArg (fun t : State => t.alloc.summary) hframe, rfl, ?_⟩
  have hsum := State.runFrame_inForceSum (s := s.frameTaken) h label
  have hwalk := s.frameTaken.frameWalk_sum label (nextFrameNumber s.frameTaken.alloc.frameNumber) s.frameTaken.powerDutyFuel
  have hflare : (s.frameTaken.runFrame label).alloc.flare ≤
      (s.frameTaken.frameWalk label (nextFrameNumber s.frameTaken.alloc.frameNumber) s.frameTaken.powerDutyFuel).2 := by
    rw [hframe, ← State.frameSummary_remainder]
    exact flareDemand_le ..
  have hheld : s.frameTaken.heldSum = s.heldSum := rfl
  rw [hheld] at hsum hwalk
  rw [hsum, State.thisFrame]
  omega

end Sys2Proof.Machine
end

section

-- One thread per proof would pass the memory limit of the build: each has a stack of its own.
set_option Elab.async false

/-! # Proofs: what a frame posts and what its summary holds -/

namespace Sys2Proof.Machine

/-! ### The notices of a frame -/

/-- Two states that post alike: what notices, flags and grants are posted from is the same. -/
structure Alike (s t : State) : Prop where
  ports : s.ports = t.ports
  station : s.station = t.station
  clock : s.clock = t.clock
  flags : s.alloc.flags = t.alloc.flags
  consumers : s.alloc.consumers = t.alloc.consumers

namespace Alike
variable {s t : State}

theorem refl (s : State) : Alike s s := ⟨rfl, rfl, rfl, rfl, rfl⟩

theorem trans {u : State} (h : Alike s t) (h' : Alike t u) : Alike s u :=
  ⟨h.ports.trans h'.ports, h.station.trans h'.station, h.clock.trans h'.clock, h.flags.trans h'.flags,
    h.consumers.trans h'.consumers⟩

theorem post (h : Alike s t) (rs : List Party) (k : NoticeKind) (i : Nat) (v : BitVec 32) (m b : Nat) :
    Alike (s.post rs k i v m b) (t.post rs k i v m b) :=
  ⟨State.post_ports_congr h.ports h.station h.clock .., by simp [h.station], by simp [h.clock], by simp [h.flags],
    by simp [h.consumers]⟩

theorem setFlag (h : Alike s t) (f : Fin 8) (x : Flag) :
    Alike (s.mapAlloc fun a => { a with flags := a.flags.set f x }) (t.mapAlloc fun a => { a with flags := a.flags.set f x }) :=
  ⟨h.ports, h.station, h.clock, congrArg (fun y : Table Flag 8 => y.set f x) h.flags, h.consumers⟩

theorem askFlag (h : Alike s t) (f : Fin 8) (v : Bool) : Alike (s.askFlag f v) (t.askFlag f v) := by
  unfold State.askFlag
  rw [h.flags, h.clock]
  split
  · exact h
  · exact (h.setFlag f _).post ..

theorem foldl_askFlag (h : Alike s t) (l : List (Fin 8 × Bool)) :
    Alike (l.foldl (fun (u : State) x => u.askFlag x.1 x.2) s) (l.foldl (fun (u : State) x => u.askFlag x.1 x.2) t) := by
  induction l generalizing s t with
  | nil => exact h
  | cons a l ih => exact ih (h.askFlag a.1 a.2)

theorem setConsumer (h : Alike s t) (e : Fin 12) (c : Consumer) : Alike (s.setConsumer e c) (t.setConsumer e c) :=
  ⟨h.ports, h.station, h.clock, h.flags, congrArg (fun y : Table Consumer 12 => y.set e c) h.consumers⟩

theorem consumer (h : Alike s t) (e : Fin 12) : s.consumer e = t.consumer e :=
  congrArg (fun y : Table Consumer 12 => y.get e) h.consumers

theorem handGrant (h : Alike s t) (e : Fin 12) (g : Nat) : Alike (s.handGrant e g) (t.handGrant e g) := by
  have hc := h.consumer e
  by_cases hg : g = (s.consumer e).confirmed
  · rwa [State.handGrant_same hg, State.handGrant_same (hc ▸ hg)]
  · by_cases hp : (s.consumer e).mustPost g = true
    · rw [State.handGrant_posts hg hp, State.handGrant_posts (hc ▸ hg) (hc ▸ hp), hc, State.img_congr h.station]
      exact (h.setConsumer e _).post ..
    · rw [State.handGrant_absorbs hg hp, State.handGrant_absorbs (hc ▸ hg) (hc ▸ hp), hc]
      exact h.setConsumer e _

theorem handOne (h : Alike s t) (f : FrameSummary) (e : Fin 12) : Alike (s.handOne f e) (t.handOne f e) := by
  unfold State.handOne
  split
  · exact h.handGrant e _
  · exact h

theorem handOver (h : Alike s t) (f : FrameSummary) : Alike (s.handOver f) (t.handOver f) := by
  rw [State.handOver_eq, State.handOver_eq]
  generalize List.finRange 12 = l
  induction l generalizing s t with
  | nil => exact h
  | cons e l ih => exact ih (h.handOne f e)

end Alike

theorem HolderBand.code_eq (b : HolderBand) : b.code =
    match b with
    | .lowlow => 0
    | .low => 1
    | .normal => 2
    | .high => 3
    | .highhigh => 4 := by cases b <;> rfl

/-- R92's words for a flare demand that moves. -/
theorem flareMoves_eq (threshold reported demand : Nat) : flareMoves threshold reported demand =
    decide (demand ≠ reported ∧ (threshold ≤ ((demand : Int) - reported).natAbs ∨ (demand = 0 ↔ reported ≠ 0))) := by
  rw [Bool.eq_iff_iff, decide_eq_true_eq, flareMoves, max_sub_min, Bool.and_eq_true, bne_iff_ne, Bool.or_eq_true, decide_eq_true_eq]
  refine and_congr_right fun _ => or_congr_right ?_
  by_cases h1 : demand = 0 <;> by_cases h2 : reported = 0 <;> simp [h1, h2]

/-- R77: HOLDER BAND as posted from the state before. -/
noncomputable def State.banded (s : State) (b : HolderBand) (l : Int) : State :=
  if b = s.alloc.band then s else s.post [.works, .plant] .holderBand b.code (BitVec.ofInt 32 l)

/-- R92: FLARE as posted from the state before. -/
noncomputable def State.flared (s : State) (moves : Bool) (n : Nat) : State :=
  if moves then s.post [.works] .flare 0 (fit32 0 4294967295 Config.wideWord n) else s

theorem State.judgeBand_alike {s t : State} (h : Alike s t) (hb : s.alloc.band = t.alloc.band) (b : HolderBand) (l : Int) :
    Alike (s.judgeBand b l) (t.banded b l) := by
  have hset : Alike (s.mapAlloc fun a => { a with band := b }) t := ⟨h.ports, h.station, h.clock, h.flags, h.consumers⟩
  unfold State.judgeBand State.banded
  dsimp only
  rw [hb]
  split
  · exact hset
  · exact hset.post ..

theorem State.setFlare_alike {s t : State} (h : Alike s t) {n : Nat} {moves : Bool}
    (hm : flareMoves s.img.flareThreshold s.alloc.reportedFlare n = moves) : Alike (s.setFlare n) (t.flared moves n) := by
  subst hm
  unfold State.setFlare State.flared
  dsimp only
  split
  · refine Alike.post (s := (s.mapAlloc fun a => { a with flare := n }).mapAlloc fun a => { a with reportedFlare := n }) ?_ ..
    exact ⟨h.ports, h.station, h.clock, h.flags, h.consumers⟩
  · exact ⟨h.ports, h.station, h.clock, h.flags, h.consumers⟩

/-- The notices of a frame before the hand-over, as posted from the state it found. -/
noncomputable def State.noticed (s : State) (f : FrameSummary) : State :=
  (askedFlags f.band).foldl (fun (u : State) x => u.askFlag x.1 x.2)
    ((s.banded f.band f.level).flared (flareMoves s.img.flareThreshold s.alloc.reportedFlare f.flare) f.flare)

theorem State.framed_alike {s t : State} (h : Alike s t) (hb : s.alloc.band = t.alloc.band)
    (hr : s.alloc.reportedFlare = t.alloc.reportedFlare) (label : Nat) :
    Alike (s.framed label) (t.noticed (s.thisFrame label)) := by
  have h1 : Alike (s.mapTracker fun t =>
      { t with fuel := some ⟨(s.thisFrame label).powerFuel, nextFrameNumber s.alloc.frameNumber⟩ }) t :=
    ⟨h.ports, h.station, h.clock, h.flags, h.consumers⟩
  have h2 := State.judgeBand_alike h1 hb (s.thisFrame label).band (s.thisFrame label).level
  obtain ⟨p, hframe⟩ := State.judgeBand_frame
    (s.mapTracker fun t => { t with fuel := some ⟨(s.thisFrame label).powerFuel, nextFrameNumber s.alloc.frameNumber⟩ })
    (s.thisFrame label).band (s.thisFrame label).level
  have hsplit : s.framed label = (((State.judgeBand (s.mapTracker fun t =>
        { t with fuel := some ⟨(s.thisFrame label).powerFuel, nextFrameNumber s.alloc.frameNumber⟩ })
        (s.thisFrame label).band (s.thisFrame label).level).mapAlloc fun a =>
          { a with frameNumber := nextFrameNumber s.alloc.frameNumber, pointers := (s.thisFrame label).pointers }).setFlare
            (s.thisFrame label).flare).holderFlags (s.thisFrame label).band := rfl
  have hsame : flareMoves (State.judgeBand (s.mapTracker fun t =>
      { t with fuel := some ⟨(s.thisFrame label).powerFuel, nextFrameNumber s.alloc.frameNumber⟩ })
      (s.thisFrame label).band (s.thisFrame label).level).img.flareThreshold (State.judgeBand (s.mapTracker fun t =>
      { t with fuel := some ⟨(s.thisFrame label).powerFuel, nextFrameNumber s.alloc.frameNumber⟩ })
      (s.thisFrame label).band (s.thisFrame label).level).alloc.reportedFlare (s.thisFrame label).flare =
        flareMoves t.img.flareThreshold t.alloc.reportedFlare (s.thisFrame label).flare := by
    rw [hframe, ← hr, ← State.img_congr h.station]; rfl
  rw [hsplit, State.holderFlags_eq, State.noticed]
  generalize State.judgeBand _ _ _ = j at h2 hsame ⊢
  have h3 : Alike (j.mapAlloc fun a =>
      { a with frameNumber := nextFrameNumber s.alloc.frameNumber, pointers := (s.thisFrame label).pointers }) _ :=
    ⟨h2.ports, h2.station, h2.clock, h2.flags, h2.consumers⟩
  exact (State.setFlare_alike h3 hsame).foldl_askFlag _

/-- The notices of a frame, as posted from the state it found. -/
theorem State.runFrame_ports (s : State) (label : Nat) :
    (s.frameTaken.runFrame label).ports = ((s.noticed (s.thisFrame label)).handOver (s.thisFrame label)).ports := by
  have htaken : Alike s.frameTaken s := ⟨rfl, rfl, rfl, rfl, rfl⟩
  have h := (State.framed_alike htaken rfl rfl label).handOver (s.thisFrame label)
  rw [State.runFrame_eq]
  exact h.ports

theorem State.handOne_consumer_eq (f : FrameSummary) (s : State) (e : Fin 12) : (s.handOne f e).consumer e =
    match (f.outcomes.get e).grant with
    | some g => (s.handGrant e g).consumer e
    | none => s.consumer e := by
  unfold State.handOne
  cases (f.outcomes.get e).grant <;> rfl

theorem fit32_of_le {n : Nat} (h : n ≤ 4294967295) (wide : Int → BitVec 32) :
    fit32 0 4294967295 wide n = BitVec.ofNat 32 n := by
  rw [fit32, if_pos (by omega)]
  exact BitVec.ofInt_natCast ..

theorem State.banded_eq (s : State) (f : FrameSummary) : s.banded f.band f.level =
    if f.band = s.alloc.band then s
    else s.post [.works, .plant] .holderBand f.band.code (BitVec.ofInt 32 f.level) := rfl

/-- What a frame completion leaves of each consumer. -/
theorem State.frameTaken_consumer (s : State) (label : Nat) (e : Fin 12) :
    (s.frameTaken.runFrame label).consumer e =
      match ((s.frameSummary label ((s.alloc.frameNumber + 1) % 4294967296) s.powerDutyFuel).outcomes.get e).grant with
      | some g => (s.handGrant e g).consumer e
      | none => s.consumer e := by
  rw [State.runFrame_consumer, ← State.handOne_consumer_eq]
  exact State.handOne_consumer_congr _ rfl rfl

/-! ### What the summary holds -/

theorem divUp_le_iff {a b x : Nat} (hb : 0 < b) : divUp a b ≤ x ↔ a ≤ x * b := by
  rw [divUp, Nat.div_le_iff_le_mul_add_pred hb, Nat.mul_comm]
  omega

theorem shareOf_eq (shares : List (Fin 12 × Nat)) (e : Fin 12) :
    shareOf shares e = ((shares.find? fun x => x.1 == e).map Prod.snd).getD 0 := by
  unfold shareOf
  cases shares.find? fun x => x.1 == e <;> rfl

/-- The entry passes its unmet request to an alternate that is walked (R84). -/
noncomputable def State.passes (s : State) (band : HolderBand) (e a : Fin 12) : Bool :=
  (s.img.operator e).isSome && s.img.alternate e == some a && s.walkable band a

theorem State.passedOut_eq_some_iff (s : State) (band : HolderBand) (e : Fin 12) (x : Nat × Fin 12) :
    s.passedOut band e = some x ↔ s.passes band e x.2 = true ∧ 0 < s.unmet e ∧ x.1 = s.unmet e := by
  obtain ⟨n, a⟩ := x
  unfold State.passedOut State.passes
  cases halt : s.img.alternate e with
  | none => simp
  | some b =>
    simp only [Option.ite_none_right_eq_some, Option.some.injEq, Prod.mk.injEq, Bool.and_eq_true, beq_iff_eq]
    constructor
    · rintro ⟨⟨h1, h2, h3⟩, rfl, rfl⟩
      exact ⟨⟨⟨h1, rfl⟩, h2⟩, h3, rfl⟩
    · rintro ⟨⟨⟨h1, rfl⟩, h2⟩, h3, rfl⟩
      exact ⟨⟨h1, h2, h3⟩, rfl, rfl⟩

/-- What one entry passes in to another. -/
theorem State.passedIn_term (s : State) (band : HolderBand) (x e : Fin 12) :
    (match s.passedOut band x with
    | some (amount, a) => if a = e then amount else 0
    | none => 0) = if s.passes band x e then s.unmet x else 0 := by
  cases h : s.passedOut band x with
  | none =>
    have hnot : ¬(s.passes band x e = true ∧ 0 < s.unmet x) := fun hp => by
      have := (s.passedOut_eq_some_iff band x (s.unmet x, e)).mpr ⟨hp.1, hp.2, rfl⟩
      rw [h] at this; cases this
    dsimp only
    split
    · next hp => exact (Nat.eq_zero_of_not_pos fun h0 => hnot ⟨hp, h0⟩).symm
    · rfl
  | some y =>
    obtain ⟨n, a⟩ := y
    obtain ⟨hp, -, rfl⟩ := (s.passedOut_eq_some_iff band x _).mp h
    dsimp only at hp ⊢
    by_cases ha : a = e
    · rw [if_pos ha, if_pos (ha ▸ hp)]
    · rw [if_neg ha, if_neg]
      simp only [State.passes, Bool.and_eq_true, beq_iff_eq] at hp ⊢
      obtain ⟨⟨-, hb⟩, -⟩ := hp
      rintro ⟨⟨-, hc⟩, -⟩
      exact ha (Option.some.inj (hb.symm.trans hc))

theorem State.passedIn_eq (s : State) (band : HolderBand) (e : Fin 12) : s.passedIn band e =
    ((List.finRange 12).map fun x => if s.passes band x e then s.unmet x else 0).sum :=
  congrArg List.sum (List.map_congr_left fun x _ => s.passedIn_term band x e)

/-- The disposition of R80, with the words of the eligibility condition. -/
theorem State.disposition_eq (s : State) (band : HolderBand) (e : Fin 12) : s.disposition band e =
    if s.img.operator e = none ∨ (s.consumer e).state = .out then .absent
    else if (s.consumer e).state = .tripped then .tripped
    else if (s.consumer e).state = .unresponsive ∨ (s.consumer e).state = .changing then .held
    else if (s.consumer e).parked = true then .parked
    else if (s.img.eligibility e).met s.alloc.flags = false then .ineligible
    else if band = .lowlow ∧ s.img.shedRank ≤ 7 ∧ s.img.shedRank ≤ s.img.rank e then .shed
    else .walked := by
  simp only [State.disposition, shed, Option.isNone_iff_eq_none, Bool.not_eq_true']
  simp

/-! ### Rotation (R89) -/

theorem follower_eq {before after : List (Fin 12)} {e : Fin 12} (hn : e ∉ before) (hlen : 2 ≤ (before ++ e :: after).length) :
    some (follower (before ++ e :: after) e) = (after ++ before ++ [e]).head? := by
  have hidx : (before ++ e :: after).findIdx? (fun x => x == e) = some before.length := by
    rw [List.findIdx?_append, List.findIdx?_eq_none_iff.mpr fun x hx => by simpa using fun h : x = e => hn (h ▸ hx),
      List.findIdx?_cons]
    simp
  rw [follower, hidx]
  dsimp only
  cases after with
  | nil =>
    cases before with
    | nil => simp at hlen
    | cons b before => simp
  | cons a after =>
    rw [Nat.mod_eq_of_lt (by simp)]
    simp

theorem any_filterMap_trimmed (walked : List WalkedEntry) (order : List (Fin 12)) :
    (order.filterMap (walkedAt walked)).any WalkedEntry.trimmed =
      order.any fun e => ((walkedAt walked e).map WalkedEntry.trimmed).getD false := by
  rw [List.any_filterMap]
  refine congrArg (order.any ·) (funext fun e => ?_)
  cases walkedAt walked e <;> rfl

/-- R89: without a trim among two or more of its rank, the pointer stands. -/
theorem State.rotated_stands {s : State} {walked : List WalkedEntry} {r : Fin 8}
    (h : (s.rotationOrder r).length ≤ 1 ∨
      ((s.rotationOrder r).any fun e => ((walkedAt walked e).map WalkedEntry.trimmed).getD false) = false) :
    s.rotated walked r = s.alloc.pointers.get r := by
  rw [← any_filterMap_trimmed] at h
  rw [State.rotated, if_pos (h.imp_right fun h => by rw [h]; rfl)]

/-- R89: with a trim, the pointer moves past the first entry with a target above 0. -/
theorem State.rotated_moves {s : State} {walked : List WalkedEntry} {r : Fin 8} {before after : List (Fin 12)} {e : Fin 12}
    {w : WalkedEntry} (horder : s.rotationOrder r = before ++ e :: after) (hlen : 2 ≤ (s.rotationOrder r).length)
    (htrim : ((s.rotationOrder r).any fun e => ((walkedAt walked e).map WalkedEntry.trimmed).getD false) = true)
    (hw : walkedAt walked e = some w) (hpos : 0 < w.target)
    (hbefore : ∀ x ∈ before, ∀ v, walkedAt walked x = some v → v.target = 0) :
    some (s.rotated walked r) = (after ++ before ++ [e]).head? := by
  rw [← any_filterMap_trimmed] at htrim
  have hn : e ∉ before := by
    have := horder ▸ s.rotationOrder_nodup r
    exact fun he => (List.nodup_append.mp this).2.2 e he e List.mem_cons_self rfl
  have hnone : (before.filterMap (walkedAt walked)).find? (fun w => decide (0 < w.target)) = none := by
    refine List.find?_eq_none.mpr fun v hv => ?_
    obtain ⟨x, hx, hxv⟩ := List.mem_filterMap.mp hv
    simp [hbefore x hx v hxv]
  have hfind : ((s.rotationOrder r).filterMap (walkedAt walked)).find? (fun w => decide (0 < w.target)) = some w := by
    rw [horder, List.filterMap_append, List.find?_append, hnone, List.filterMap_cons_some hw, List.find?_cons_of_pos (by simpa)]
    rfl
  rw [State.rotated]
  rw [if_neg (by rw [htrim]; simp; omega), hfind]
  dsimp only
  rw [walkedAt_entry hw, horder]
  exact follower_eq hn (horder ▸ hlen)

/-! ### Running the frame and its summary -/

/-- The outcome of an entry, with the walk and the shares by name (R93). -/
theorem State.frameSummary_outcome (s : State) (label number fuel : Nat) (e : Fin 12) :
    let f := s.frameSummary label number fuel
    let o := f.outcomes.get e
    let w := walkedAt (s.frameWalk label number fuel).1 e
    o.disposition = s.disposition f.band e ∧ o.declValue = s.declInUse (requestDecl e) ∧
    o.declState = (s.decls.get (requestDecl e)).state ∧
    o.share = shareOf ((s.placeFuel f.band .heat f.heatFuel).1 ++ (s.placeFuel f.band .power fuel).1) e ∧
    o.passedOut = (s.passedOut f.band e).map (fun x => (x.1, x.2.val)) ∧ o.passedIn = s.passedIn f.band e ∧
    o.request = (if o.disposition = .walked then some (o.declValue + o.share + o.passedIn) else none) ∧
    o.target = w.map WalkedEntry.target ∧ o.trim = (w.map WalkedEntry.trimmed).getD false := by
  simp only [State.frameWalk, State.frameSummary, Table.get_ofFn, and_self]

theorem State.frameSummary_pointers (s : State) (label number fuel : Nat) (r : Fin 8) :
    (s.frameSummary label number fuel).pointers.get r = s.rotated (s.frameWalk label number fuel).1 r := by
  simp only [State.frameWalk, State.frameSummary, Table.get_ofFn]

/-- Settles O30: the frame's changes and notices one by one, and the summary's fields one by one. -/
theorem frameCompletionRunsTheFrame : Obligations.FrameCompletionRunsTheFrame := by
  refine ⟨fun s label h => ?_, fun s label number powerFuel => ?_⟩
  · intro number f
    obtain ⟨p, x, y, hframe, hhigh, hlow⟩ := s.frameTaken.runFrame_frame label
    have hconsumer := s.frameTaken_consumer label
    have hports := s.runFrame_ports label
    refine ⟨_, exec_frameCompletion h, ?_⟩
    rw [hframe] at hports hconsumer ⊢
    refine ⟨rfl, rfl, rfl, rfl, rfl, rfl, hconsumer, rfl, hhigh, hlow, rfl, rfl, rfl, rfl, rfl, rfl, rfl, ?_⟩
    intro old moved high low code asked
    have hmoved : flareMoves s.img.flareThreshold s.alloc.reportedFlare f.flare = moved := flareMoves_eq ..
    have hcode : f.band.code = code := f.band.code_eq
    have hasked : askedFlags f.band = asked := by
      simp only [asked, high, low, askedFlags, decide_eq_true_eq]
    refine ⟨?_, fit32 0 4294967295 Config.wideWord f.flare, fun hle => fit32_of_le hle _, ?_⟩
    · show s.flareReported f.flare = _
      rw [State.flareReported, hmoved]; rfl
    · intro banded flared flagged
      have hnoticed : s.noticed f = flagged := by
        have h1 : s.banded f.band f.level = banded := by rw [State.banded_eq, hcode]; rfl
        rw [State.noticed, hasked, h1, hmoved]; rfl
      refine hports.trans ?_
      show ((s.noticed f).handOver f).ports = _
      rw [hnoticed]; rfl
  · intro f value out walked room fuelTo shares walk unmet passes
    have hwalked : walked = s.walkable f.band := funext fun e => by
      obtain ⟨hd, -⟩ := s.frameSummary_outcome label number powerFuel e
      show decide ((f.outcomes.get e).disposition = .walked) = _
      rw [hd]; rfl
    have hfuel : ∀ d fuel, fuelTo d fuel = s.placeFuel f.band d fuel := fun d fuel => by
      show shareFuel room fuel (s.ladder.filter fun e => walked e && s.img.duty e == d) = _
      rw [hwalked]; rfl
    have hwalk : walk = s.frameWalk label number powerFuel := by
      show walkLadder _ _ _ (s.ladder.filter walked) = _
      rw [hwalked]; rfl
    have hpasses : ∀ e a, passes e a = s.passes f.band e a := fun e a => by
      show ((s.img.operator e).isSome && s.img.alternate e == some a && walked a) = _
      rw [hwalked]; rfl
    refine ⟨rfl, rfl, rfl, rfl, rfl, rfl, rfl, rfl, rfl, rfl, rfl, rfl, rfl, ?_, ?_, ?_, ?_, fun hpos x => divUp_le_iff hpos,
      fun e => ?_, fun r => ?_⟩
    · rw [hfuel]; rfl
    · rw [hfuel]; rfl
    · rw [hwalk]; exact s.frameSummary_remainder ..
    · rw [hwalk, ← State.frameSummary_remainder]; rfl
    · intro c met
      obtain ⟨hdisp, hdecl, hstate, hshare, hout, hin, hrequest, htarget, htrim⟩ :=
        s.frameSummary_outcome label number powerFuel e
      have hmet : (s.img.eligibility e).met s.alloc.flags = met := by
        show _ = (match s.img.eligibility e with | .always => _ | .whenSet n => _ | .whenClear n => _)
        cases s.img.eligibility e <;> rfl
      refine ⟨?_, hdecl, hstate, ?_, fun x => ?_, ?_, ?_, ?_⟩
      · rw [← hmet, ← State.disposition_eq]; exact hdisp
      · rw [← shareOf_eq]
        show _ = shareOf ((fuelTo .heat f.heatFuel).1 ++ (fuelTo .power powerFuel).1) e
        rw [hfuel, hfuel]; exact hshare
      · show (f.outcomes.get e).passedOut = some x ↔ _
        rw [hout, Option.map_eq_some_iff]
        constructor
        · rintro ⟨⟨n, a⟩, hy, rfl⟩
          obtain ⟨hp, hu, hn⟩ := (s.passedOut_eq_some_iff f.band e _).mp hy
          exact ⟨a, (hpasses e a).trans hp, hu, congrArg (·, a.val) hn⟩
        · rintro ⟨a, hp, hu, rfl⟩
          exact ⟨(s.unmet e, a), (s.passedOut_eq_some_iff f.band e _).mpr ⟨(hpasses e a).symm.trans hp, hu, rfl⟩, rfl⟩
      · show (f.outcomes.get e).passedIn = _
        rw [hin, State.passedIn_eq]
        simp only [hpasses]; rfl
      · simp only [walked, decide_eq_true_eq]
        exact hrequest
      · rw [hwalk]
        refine ⟨htarget, htrim, ?_⟩
        show (f.outcomes.get e).grant = match (f.outcomes.get e).disposition with
          | .walked => _
          | .absent => _
          | .tripped => _
          | .held => _
          | _ => _
        rw [hdisp]
        refine (s.frameSummary_grant label number powerFuel e).trans ?_
        cases s.disposition f.band e <;> rfl
    · intro order trimmed
      have htrimmed : trimmed = (s.rotationOrder r).any fun e =>
          ((walkedAt (s.frameWalk label number powerFuel).1 e).map WalkedEntry.trimmed).getD false := by
        refine congrArg (order.any ·) (funext fun e => ?_)
        obtain ⟨-, -, -, -, -, -, -, -, htrim⟩ := s.frameSummary_outcome label number powerFuel e
        exact htrim
      have htargets : ∀ e, (out e).target =
          (walkedAt (s.frameWalk label number powerFuel).1 e).map WalkedEntry.target := fun e => by
        obtain ⟨-, -, -, -, -, -, -, htarget, -⟩ := s.frameSummary_outcome label number powerFuel e
        exact htarget
      have hpointer : f.pointers.get r = s.rotated (s.frameWalk label number powerFuel).1 r := s.frameSummary_pointers ..
      refine ⟨fun h => ?_, fun before e after g horder hlen htrim hg hpos hbefore => ?_⟩
      · rw [htrimmed] at h
        exact hpointer.trans (State.rotated_stands h)
      · rw [htargets] at hg
        obtain ⟨w, hw, rfl⟩ := Option.map_eq_some_iff.mp hg
        rw [hpointer]
        refine State.rotated_moves horder hlen (htrimmed.symm.trans htrim) hw hpos fun x hx v hv => ?_
        exact hbefore x hx _ (by rw [htargets, hv]; rfl)

end Sys2Proof.Machine
end

section

-- One thread per proof would pass the memory limit of the build: each has a stack of its own.
set_option Elab.async false

/-! # Proofs: consumer entries and nominations -/

namespace Sys2Proof.Machine

/-! ### The second expiry (R102) -/

/-- Settles O33: the expiry is due, and what it leaves is read off. -/
theorem secondExpiryMakesUnresponsive : Obligations.SecondExpiryMakesUnresponsive := by
  intro e s hrun c hstate htimer hretry
  have hdue : s.expiryDue e 1 = true := by
    rw [State.expiryDue, hrun]
    simp [show (s.consumer e).state = .changing from hstate, show (s.consumer e).timer = 0 from htimer,
      show (s.consumer e).retry = 1 from hretry]
  have hconsumer : (s.secondExpiry e).consumer e = { c with state := .unresponsive, pending := none, retry := 0, timer := 0 } := by
    rw [State.secondExpiry, State.post_consumer, State.setConsumer_consumer]
  refine ⟨s.secondExpiry e, congrArg _ (if_pos hdue), rfl, ?_, ?_, ?_⟩ <;> rw [hconsumer]
  rfl

/-! ### Requests for a consumer entry (section 6.3) -/

section Entry
variable {s : State} {p : Party} {r : Request} {rule : State → Fin 12 → State × Reply}

theorem entry_range {n : Nat} (h : Serves s p) (hn : 12 ≤ n) :
    s.request p r (fun s => judgeEntry s p n (rule s)) = answered s p .range [] :=
  State.request_completes h (by rw [judgeEntry, finOf_eq, dif_neg (by omega)]; rfl)

theorem entry_absent {e : Fin 12} (h : Serves s p) (he : s.img.operator e = none) :
    s.request p r (fun s => judgeEntry s p e.val (rule s)) = answered s p .state [] := by
  refine State.request_completes h ?_
  have hop : (s.mapPort p Port.take).img.operator e = none := he
  rw [judgeEntry, finOf_val]
  dsimp only
  rw [hop]; rfl

theorem entry_denied {e : Fin 12} {q : Party} (h : Serves s p) (he : s.img.operator e = some q) (hq : q ≠ p) :
    s.request p r (fun s => judgeEntry s p e.val (rule s)) = answered s p .denied [] := by
  refine State.request_completes h ?_
  have hop : (s.mapPort p Port.take).img.operator e = some q := he
  rw [judgeEntry, finOf_val]
  dsimp only
  rw [hop]
  exact if_neg hq.symm

theorem judgeEntry_of_operates {e : Fin 12} (h : Operates s p e) :
    judgeEntry (s.mapPort p Port.take) p e.val (rule (s.mapPort p Port.take)) = rule (s.mapPort p Port.take) e := by
  have hop : (s.mapPort p Port.take).img.operator e = some p := h
  rw [judgeEntry, finOf_val]
  dsimp only
  rw [hop]
  exact if_pos rfl

/-- The operating party's request, by its own rule: a consumer replaced, or nothing changed. -/
theorem entry_accepts {e : Fin 12} {c : Consumer} {res : Result} (h : Serves s p) (he : Operates s p e)
    (hrule : rule (s.mapPort p Port.take) e = acceptConsumer (s.mapPort p Port.take) e c res) :
    s.request p r (fun s => judgeEntry s p e.val (rule s)) = answered (s.setConsumer e c) p res (consumerData c) :=
  State.request_serves h ((judgeEntry_of_operates he).trans hrule)

theorem entry_completes {e : Fin 12} {res : Result} {data : List Byte} (h : Serves s p) (he : Operates s p e)
    (hrule : rule (s.mapPort p Port.take) e = (s.mapPort p Port.take, .done res data)) :
    s.request p r (fun s => judgeEntry s p e.val (rule s)) = answered s p res data :=
  State.request_completes h ((judgeEntry_of_operates he).trans hrule)

end Entry

/-- Every request for a consumer entry is judged by the entry first. -/
theorem exec_entryRequest {p : Party} {n a b c d e : Nat} {i : Instr}
    (hi : i ∈ [Instr.confirmGrant p n a, .refuseGrant p n a b, .reportTrip p n, .reportReady p n a, .park p n, .unpark p n,
      .setLimits p n b c d e]) :
    ∃ (r : Request) (rule : State → Fin 12 → State × Reply), ∀ s, exec i s = .next (s.request p r fun s => judgeEntry s p n (rule s)) := by
  simp only [List.mem_cons, List.not_mem_nil, or_false] at hi
  obtain rfl | rfl | rfl | rfl | rfl | rfl | rfl := hi <;> exact ⟨_, _, fun _ => rfl⟩

/-- Settles O34: all seven requests are judged by the entry first. -/
theorem entryRequestsObeyTheOperator : Obligations.EntryRequestsObeyTheOperator := by
  intro p n a b c d e s i h hi
  obtain ⟨r, rule, hexec⟩ := exec_entryRequest hi
  rw [hexec]
  refine ⟨fun hn => congrArg _ (entry_range h hn), fun f hf => ?_⟩
  subst hf
  exact ⟨fun ho => congrArg _ (entry_absent h ho), fun q ho hq => congrArg _ (entry_denied h ho hq)⟩

theorem okOrClamped_clampTop (top v : Nat) : okOrClamped (clampTop top v).2 = if v ≤ top then .ok else .clamped := by
  rw [clampTop]
  split
  · rw [if_neg (by omega)]; rfl
  · rw [if_pos (by omega)]; rfl

theorem clampTop_fst (top v : Nat) : (clampTop top v).1 = min top v := by rw [clampTop_eq]

/-- CONFIRM GRANT of the grant that waits (R104). -/
theorem exec_confirmGrant {s : State} {p : Party} {e : Fin 12} {g : Nat} (h : Serves s p) (he : Operates s p e)
    (hc : (s.consumer e).state = .changing ∧ (s.consumer e).pending = some g ∨
      (s.consumer e).state = .unresponsive ∧ (s.consumer e).posted = some g) :
    exec (.confirmGrant p e.val (s.consumer e).id) s =
      .next (answered (s.setConsumer e { s.consumer e with confirmed := g }.settle) p .ok
        (consumerData { s.consumer e with confirmed := g }.settle)) := by
  have hsame : (s.mapPort p Port.take).consumer e = s.consumer e := rfl
  refine congrArg _ (entry_accepts h he ?_)
  rw [confirmRule, hsame]
  obtain ⟨hs, hg⟩ | ⟨hs, hg⟩ := hc
  · have hgrant : (s.consumer e).pending.getD (s.consumer e).confirmed = g := by rw [hg]; rfl
    rw [hs, hgrant]
    dsimp only
    rw [if_pos rfl]; rfl
  · have hgrant : (s.consumer e).posted.getD (s.consumer e).confirmed = g := by rw [hg]; rfl
    rw [hs, hgrant]
    dsimp only
    rw [if_pos rfl]; rfl

/-- Settles O35: by whether the consumer waits, and whether the id is the current one. -/
theorem grantAnswersSettle : Obligations.GrantAnswersSettle := by
  intro p e id acceptable s h he c waits settled done
  have hsame : (s.mapPort p Port.take).consumer e = c := rfl
  refine ⟨fun g hs hg hid => ?_, fun g hs hg hid => ?_, fun hw hid => ?_, fun hw hid => ⟨?_, ?_⟩, fun hw => ⟨?_, ?_⟩⟩
  · exact hid ▸ exec_confirmGrant h he (.inl ⟨hs, hg⟩)
  · exact hid ▸ exec_confirmGrant h he (.inr ⟨hs, hg⟩)
  · refine congrArg _ (entry_accepts h he ?_)
    rw [refuseGrantRule, hsame]
    rw [if_pos hw, if_pos hid, okOrClamped_clampTop, Consumer.declined, clampTop_fst]; rfl
  · refine congrArg _ (entry_completes h he ?_)
    rw [confirmRule, hsame]
    obtain hs | hs := hw
    · rw [hs]
      exact if_neg hid
    · rw [hs]
      exact if_neg hid
  · refine congrArg _ (entry_completes h he ?_)
    rw [refuseGrantRule, hsame]
    rw [if_pos hw, if_neg hid]; rfl
  · refine congrArg _ (entry_completes h he ?_)
    rw [confirmRule, hsame]
    obtain ⟨h1, h2⟩ := not_or.mp hw
    cases hs : c.state <;> simp_all [refuse]
  · refine congrArg _ (entry_completes h he ?_)
    rw [refuseGrantRule, hsame]
    exact if_neg hw

/-- Settles O36: each request by its own rule, past the judgement of the entry. -/
theorem reportsParkingAndLimits : Obligations.ReportsParkingAndLimits := by
  refine ⟨fun p e firing s h he => ?_, fun p e lo hi ramp threshold s h he => ?_⟩
  · intro c tripped g ready
    have hsame : (s.mapPort p Port.take).consumer e = c := rfl
    refine ⟨fun hs => ?_, fun hs => ?_, ?_⟩
    · refine congrArg _ (entry_accepts h he ?_)
      rw [tripRule, hsame]
      exact if_neg hs
    · refine congrArg _ (entry_completes h he ?_)
      rw [tripRule, hsame]
      exact if_pos hs
    · refine congrArg _ (entry_accepts h he ?_)
      rw [readyRule, hsame]
      rw [okOrClamped_clampTop, Consumer.firingAt, clampTop_fst]; rfl
  · intro c put top
    refine ⟨congrArg _ (entry_accepts h he rfl), congrArg _ (entry_accepts h he rfl), ?_⟩
    split
    case isTrue hok =>
      have hl : limitsOk (s.mapPort p Port.take).img e ⟨lo, hi, ramp, threshold⟩ = true := decide_eq_true hok
      refine congrArg _ (entry_accepts h he ?_)
      rw [setLimitsRule, if_pos hl]; rfl
    case isFalse hok =>
      have hl : limitsOk (s.mapPort p Port.take).img e ⟨lo, hi, ramp, threshold⟩ = false := decide_eq_false hok
      refine congrArg _ (entry_completes h he ?_)
      rw [setLimitsRule, hl]; rfl

/-! ### Nominations (R118 to R121) -/

theorem mem_enterNomination_iff {q : List Nomination} (h : q.Pairwise (fun a b => a.interval < b.interval)) (x y : Nomination) :
    y ∈ enterNomination q x ↔ y = x ∨ y ∈ q ∧ y.interval ≠ x.interval := by
  induction q with
  | nil => simp [enterNomination]
  | cons n q ih =>
    obtain ⟨hn, hq⟩ := List.pairwise_cons.mp h
    have hlater : ∀ z ∈ q, n.interval < z.interval := hn
    rw [enterNomination]
    split
    · next hlt =>
      rw [List.mem_cons]
      refine or_congr_right (iff_self_and.mpr fun hy => ?_)
      rcases List.mem_cons.mp hy with rfl | hy
      · omega
      · have := hlater y hy; omega
    · split
      · next heq =>
        rw [List.mem_cons, List.mem_cons]
        refine or_congr_right ⟨fun hy => ⟨.inr hy, ?_⟩, fun ⟨hy, hne⟩ => ?_⟩
        · have := hlater y hy; omega
        · exact hy.resolve_left fun he => hne (he ▸ heq.symm)
      · next hge hne =>
        rw [List.mem_cons, List.mem_cons, ih hq]
        constructor
        · rintro (rfl | rfl | ⟨hy, hi⟩)
          · exact .inr ⟨.inl rfl, fun he => hne he.symm⟩
          · exact .inl rfl
          · exact .inr ⟨.inr hy, hi⟩
        · rintro (rfl | ⟨rfl | hy, hi⟩)
          · exact .inr (.inl rfl)
          · exact .inl rfl
          · exact .inr (.inr ⟨hy, hi⟩)

/-- What R119 refuses past the state check, in its order. -/
noncomputable def State.nominationRefusal (s : State) (p : Party) (interval kwh : Nat) : Option Result :=
  if s.img.recordContract.map s.img.seller ≠ some p then some .denied
  else if interval < s.tracker.running + 1 ∨ s.tracker.running + 8 < interval ∨ 1000000 < kwh then some .range
  else if s.secondsToStart interval < s.img.gate ∨ 0 < s.img.gate ∧ s.secondsToStart interval ≤ 1 then some .tooLate
  else none

theorem State.isNominator_eq_false_iff (s : State) (p : Party) :
    (!s.isNominator p) = true ↔ s.img.recordContract.map s.img.seller ≠ some p := by
  unfold State.isNominator
  cases s.img.recordContract with
  | none => simp
  | some c =>
    rw [Option.map_some, Bool.not_eq_true', beq_eq_false_iff_ne, ne_comm]
    exact not_congr Option.some_inj.symm

theorem judgeNomination_eq (s : State) (p : Party) (interval kwh : Nat) (rule : State × Reply) :
    judgeNomination s p interval kwh rule =
      match s.nominationRefusal p interval kwh with
      | some r => refuse s r
      | none => rule := by
  rw [judgeNomination, State.nominationRefusal, State.gateClosed]
  simp only [State.isNominator_eq_false_iff, decide_eq_true_eq]
  split_ifs <;> rfl

/-- A judged nomination is refused as R119 says, or changes the queue alone. -/
theorem nomination_answers {s : State} {p : Party} {r : Request} {interval kwh : Nat} {u : State} {data : List Byte}
    {rule : State → State × Reply} (h : Serves s p)
    (hrule : rule (s.mapPort p Port.take) = (u.mapPort p Port.take, .done .ok data)) :
    s.request p r (fun s => judgeNomination s p interval kwh (rule s)) =
      match s.nominationRefusal p interval kwh with
      | some r => answered s p r []
      | none => answered u p .ok data := by
  have hsame : (s.mapPort p Port.take).nominationRefusal p interval kwh = s.nominationRefusal p interval kwh := rfl
  have hjudge := judgeNomination_eq (s.mapPort p Port.take) p interval kwh (rule (s.mapPort p Port.take))
  rw [hsame] at hjudge
  cases href : s.nominationRefusal p interval kwh with
  | some x =>
    rw [href] at hjudge
    exact State.request_completes h hjudge
  | none =>
    rw [href] at hjudge
    exact State.request_serves h (hjudge.trans hrule)

/-- The refusal of a nomination of more than 1,000,000 kWh against that of one of 0. -/
theorem State.nominationRefusal_eq (s : State) (p : Party) (interval kwh : Nat) : s.nominationRefusal p interval kwh =
    if s.nominationRefusal p interval 0 ≠ some .denied ∧ 1000000 < kwh then some .range
    else s.nominationRefusal p interval 0 := by
  by_cases hd : s.img.recordContract.map s.img.seller ≠ some p
  · have hdenied : ∀ k, s.nominationRefusal p interval k = some .denied := fun k => if_pos hd
    rw [hdenied, hdenied, if_neg fun h => h.1 rfl]
  · have hne : s.nominationRefusal p interval 0 ≠ some .denied := by
      rw [State.nominationRefusal, if_neg hd]
      split
      · decide
      · split <;> decide
    by_cases hk : 1000000 < kwh
    · rw [if_pos ⟨hne, hk⟩]
      exact (if_neg hd).trans (if_pos (.inr (.inr hk)))
    · rw [if_neg fun h => hk h.2]
      simp only [State.nominationRefusal, hk, Nat.not_lt_zero]

theorem State.stateRefuses_of_not_settled {s : State} {r : Request} (h : s.settled = false)
    (hr : requestInBlank r = false) : s.stateRefuses r = true := by
  unfold State.settled at h
  unfold State.stateRefuses
  cases hs : s.station.state <;> simp_all

/-- Settles O37: by whether the station is settled, then by R119's refusals. -/
theorem nominationsEnterAndLeaveTheQueue : Obligations.NominationsEnterAndLeaveTheQueue := by
  refine ⟨fun p interval kwh s h => ?_, fun q x hq => ⟨enterNomination_pairwise hq x, mem_enterNomination_iff hq x⟩⟩
  intro q old start refusal tooMuch entered
  by_cases hs : s.settled = true
  · have hserves : Serves s p := ⟨hs, h⟩
    have hrefusal : refusal = s.nominationRefusal p interval 0 := by
      simp only [refusal, State.nominationRefusal, hs, Bool.true_eq_false, if_false, Nat.not_lt_zero, or_false]
      rfl
    have hstate : refusal ≠ some .state := by
      rw [hrefusal, State.nominationRefusal]
      split_ifs <;> nofun
    have hmuch : (if tooMuch then some .range else refusal) = s.nominationRefusal p interval kwh := by
      rw [State.nominationRefusal_eq, ← hrefusal]
      by_cases hn : refusal ≠ some .denied ∧ 1000000 < kwh
      · rw [if_pos hn, if_pos (decide_eq_true ⟨hstate, hn⟩)]
      · rw [if_neg hn, if_neg fun ht => hn (of_decide_eq_true ht).2]
    rw [hmuch, hrefusal]
    exact ⟨congrArg _ (nomination_answers (u := s.mapTracker fun t => { t with queue := entered }) hserves rfl),
      congrArg _ (nomination_answers (u := s.mapTracker fun t =>
        { t with queue := t.queue.filter fun x => x.interval != interval }) hserves rfl)⟩
  · rw [Bool.not_eq_true] at hs
    have hrefusal : refusal = some .state := if_pos hs
    have htoo : tooMuch = false := decide_eq_false fun hn => hn.1 hrefusal
    rw [htoo, hrefusal]
    exact ⟨congrArg _ (State.request_refused h (State.stateRefuses_of_not_settled hs rfl) _),
      congrArg _ (State.request_refused h (State.stateRefuses_of_not_settled hs rfl) _)⟩

end Sys2Proof.Machine
end

section

-- One thread per proof would pass the memory limit of the build: each has a stack of its own.
set_option Elab.async false

/-! # Proofs: the hand-off of a tick, tariffs and crediting -/

namespace Sys2Proof.Machine

/-! ### The hand-off (R122 to R127) -/

/-- The deviation at a label lies below the tolerance (R123). -/
noncomputable def State.isBehind (s : State) (label : Nat) : Bool := decide (s.deviation label < -(s.toleranceKwh : Int))

theorem State.judgeDeviation_eq (s : State) (label : Nat) :
    s.judgeDeviation label = (s.mapTracker fun x => { x with behind := s.isBehind label }).askFlag 7 (s.isBehind label) := rfl

theorem State.judgeDeviation_tracker (s : State) (label : Nat) :
    (s.judgeDeviation label).tracker = { s.tracker with behind := s.isBehind label } := by
  rw [State.judgeDeviation_eq, State.askFlag_tracker]; rfl

theorem State.judgeDeviation_billing (s : State) (label : Nat) : (s.judgeDeviation label).billing = s.billing := by
  rw [State.judgeDeviation_eq, State.askFlag_billing]; rfl

/-- F7 follows the judgement (R123). -/
theorem State.judgeDeviation_flag (s : State) (label : Nat) :
    ((s.judgeDeviation label).alloc.flags.get 7).set = (s.judgeDeviation label).tracker.behind := by
  rw [State.judgeDeviation_tracker, State.judgeDeviation_eq, State.askFlag_flag, if_pos rfl]

/-- The carry added to E (R122). -/
noncomputable def State.exported (s : State) (carry : Nat) : State := s.mapTracker fun t => { t with e := min 4294967295 (t.e + carry) }

theorem State.handOff_eq (s : State) (label carry : Nat) : s.handOff label carry =
    if s.endsInterval label then ((s.exported carry).closeInterval.mapTracker Tracker.beginNext).judgeDeviation label
    else (s.exported carry).judgeDeviation label := rfl

/-- R123: at the label that ends an interval the next one is not BEHIND. -/
theorem State.isBehind_at_start {s : State} {label : Nat} (he : s.tracker.e = 0)
    (hl : label + s.img.dayOffset = s.tracker.running * s.img.intervalLength) : s.isBehind label = false := by
  have helapsed : s.elapsed label = 0 := by
    rw [State.elapsed, ← Nat.cast_add, hl]
    push_cast
    omega
  rw [State.isBehind, State.deviation, State.expectedExport, helapsed, he]
  simp

theorem Tracker.beginNext_e (t : Tracker) : t.beginNext.e = 0 := by
  unfold Tracker.beginNext
  dsimp only
  split
  · split <;> rfl
  · rfl

theorem Tracker.beginNext_running (t : Tracker) : t.beginNext.running = t.running + 1 := by
  unfold Tracker.beginNext
  dsimp only
  split
  · split <;> rfl
  · rfl

theorem Tracker.beginNext_named {t : Tracker} {h : Nomination} {rest : List Nomination} (hq : t.queue = h :: rest)
    (hi : h.interval = t.running + 1) : t.beginNext =
      { t with running := t.running + 1, e := 0, outage := false, n := h.kwh, carried := false, queue := rest } := by
  unfold Tracker.beginNext
  rw [hq]
  dsimp only
  rw [if_pos hi]

theorem Tracker.beginNext_carried {t : Tracker} (hq : t.queue.head?.map Nomination.interval ≠ some (t.running + 1)) :
    t.beginNext = { t with running := t.running + 1, e := 0, outage := false, carried := true } := by
  unfold Tracker.beginNext
  cases h : t.queue with
  | nil => rfl
  | cons n rest =>
    dsimp only
    rw [if_neg fun hn => hq (by rw [h]; exact congrArg some hn)]

/-- The closed interval goes to the RECORD contract's open account alone (R124). -/
theorem State.closeInterval_billing {s : State} {c : Fin 4} (h : s.img.recordContract = some c) : s.closeInterval.billing =
    (s.mapContract c fun k =>
      { k with opened := k.opened.addInterval (s.entryOffset (s.contract c).opened) s.tracker s.deviates }).billing := by
  unfold State.closeInterval
  rw [h]
  dsimp only
  split
  · rw [State.post_billing]
  · rfl

/-- What R124 posts for a closed interval. -/
noncomputable def State.intervalTold (s : State) (c : Fin 4) : State :=
  if s.deviates then
    s.post [.plant, .works] .exportDeviation (min (s.entryOffset (s.contract c).opened) 95)
      (fit32 (-2147483648) 2147483647 Config.wideWord ((s.tracker.e : Int) - s.tracker.n))
      ((if s.tracker.carried then 1 else 0) + (if s.tracker.outage then 2 else 0))
  else s

theorem State.closeInterval_alike {s : State} {c : Fin 4} (h : s.img.recordContract = some c) :
    Alike s.closeInterval (s.intervalTold c) := by
  have hset : Alike (s.mapContract c fun k =>
      { k with opened := k.opened.addInterval (s.entryOffset (s.contract c).opened) s.tracker s.deviates }) s :=
    ⟨rfl, rfl, rfl, rfl, rfl⟩
  unfold State.closeInterval State.intervalTold
  rw [h]
  dsimp only
  split
  · exact hset.post ..
  · exact hset

theorem State.deviates_eq (s : State) :
    s.deviates = decide (s.tracker.n * s.img.tolerance / 100 < ((s.tracker.e : Int) - s.tracker.n).natAbs) := by
  rw [State.deviates, max_sub_min]; rfl

/-- The hand-off inside an interval. -/
theorem State.handOff_within {s : State} {label : Nat} (carry : Nat)
    (h : (label + s.img.dayOffset) % s.img.intervalLength ≠ 0) :
    s.handOff label carry = (s.exported carry).judgeDeviation label := by
  rw [State.handOff_eq, if_neg]
  simpa [State.endsInterval] using h

/-- The hand-off whose label ends the running interval: the next one begins, and is not BEHIND. -/
theorem State.handOff_ends {s : State} {label : Nat} (carry : Nat)
    (h : label + s.img.dayOffset = (s.tracker.running + 1) * s.img.intervalLength) :
    s.handOff label carry = (((s.exported carry).closeInterval.mapTracker Tracker.beginNext).mapTracker
      fun x => { x with behind := false }).askFlag 7 false := by
  have hends : s.endsInterval label = true := by
    rw [State.endsInterval, h, beq_iff_eq]
    exact Nat.mul_mod_left ..
  obtain ⟨p, b, hframe⟩ := (s.exported carry).closeInterval_frame
  have hbehind : ((s.exported carry).closeInterval.mapTracker Tracker.beginNext).isBehind label = false := by
    apply State.isBehind_at_start
    · exact Tracker.beginNext_e _
    · rw [hframe]
      show label + s.img.dayOffset = (Tracker.beginNext _).running * s.img.intervalLength
      rw [Tracker.beginNext_running]
      exact h
  rw [State.handOff_eq, if_pos hends, State.judgeDeviation_eq, hbehind]

theorem State.handOff_flag (s : State) (label carry : Nat) :
    ((s.handOff label carry).alloc.flags.get 7).set = (s.handOff label carry).tracker.behind := by
  rw [State.handOff_eq]
  split
  · exact State.judgeDeviation_flag ..
  · exact State.judgeDeviation_flag ..

theorem State.handOff_ends_tracker {s : State} {label : Nat} (carry : Nat)
    (h : label + s.img.dayOffset = (s.tracker.running + 1) * s.img.intervalLength) :
    (s.handOff label carry).tracker = { (s.exported carry).tracker.beginNext with behind := false } := by
  obtain ⟨p, b, hframe⟩ := (s.exported carry).closeInterval_frame
  rw [State.handOff_ends carry h, State.askFlag_tracker, hframe]; rfl

theorem Account.addInterval_eq (a : Account) (offset : Nat) (x : Tracker) (deviates : Bool) :
    (offset ≤ 95 → a.addInterval offset x deviates = { a with entries := a.entries ++
      [⟨offset, min 16777215 x.n, min 16777215 x.e, x.carried, x.outage, deviates, false, 0⟩] }) ∧
    (95 < offset → a.addInterval offset x deviates = { a with entries := a.entries.map fun y =>
      if y.offset = 95 then
        ⟨95, min 16777215 (y.n + x.n), min 16777215 (y.e + x.e), y.carried || x.carried, y.outage || x.outage,
          y.deviation || deviates, true, min 65535 (y.folds + 1)⟩
      else y }) := by
  refine ⟨fun h => if_pos h, fun h => (if_neg (by omega)).trans ?_⟩
  refine congrArg (fun l => { a with entries := l }) (List.map_congr_left fun y _ => ?_)
  split
  · next hy => rw [IntervalEntry.fold, hy]; rfl
  · rfl

/-- Settles O38: by whether the label ends the running interval. -/
theorem handOffsFollowTheExport : Obligations.HandOffsFollowTheExport := by
  refine ⟨fun s label carry => ?_, Account.addInterval_eq⟩
  intro t e elapsed
  refine ⟨s.handOff_flag label carry, fun h => ?_, fun h => ⟨fun n rest hq hi => ?_, fun hq => ?_, fun c hc => ?_⟩⟩
  · have ht : t = (s.exported carry).judgeDeviation label := State.handOff_within carry h
    rw [ht, State.judgeDeviation_tracker, State.judgeDeviation_billing]
    exact ⟨rfl, rfl⟩
  · rw [State.handOff_ends_tracker carry h]
    exact congrArg (fun x : Tracker => { x with behind := false }) (Tracker.beginNext_named (t := (s.exported carry).tracker) hq hi)
  · rw [State.handOff_ends_tracker carry h]
    exact congrArg (fun x : Tracker => { x with behind := false }) (Tracker.beginNext_carried (t := (s.exported carry).tracker) hq)
  · intro k offset deviates
    have hdev : (s.exported carry).deviates = deviates := State.deviates_eq _
    have hbilling : t.billing = (State.mapContract (s.exported carry) c fun k =>
        { k with opened := k.opened.addInterval offset { s.tracker with e := e } deviates }).billing := by
      show (s.handOff label carry).billing = _
      rw [State.handOff_ends carry h, State.askFlag_billing, ← hdev]
      exact State.closeInterval_billing (s := s.exported carry) hc
    have hcontract : ∀ d, t.contract d = _ := fun d => congrArg (fun b : Billing => b.contracts.get d) hbilling
    refine ⟨(hcontract c).trans (State.mapContract_contract ..),
      fun d hd => (hcontract d).trans (State.mapContract_contract_ne _ _ hd.symm),
      fit32 (-2147483648) 2147483647 Config.wideWord ((e : Int) - s.tracker.n), fun h1 h2 => if_pos ⟨h1, h2⟩, ?_⟩
    intro told
    have hexported : Alike (s.exported carry) s := ⟨rfl, rfl, rfl, rfl, rfl⟩
    have htold : Alike ((s.exported carry).intervalTold c) told := by
      rw [State.intervalTold, hdev]
      show Alike _ (if deviates then _ else _)
      split
      · exact hexported.post ..
      · exact hexported
    have hclosed : Alike (((s.exported carry).closeInterval.mapTracker Tracker.beginNext).mapTracker
        fun x => { x with behind := false }) told := by
      have h1 := (State.closeInterval_alike (s := s.exported carry) hc).trans htold
      exact ⟨h1.ports, h1.station, h1.clock, h1.flags, h1.consumers⟩
    show (s.handOff label carry).ports = _
    rw [State.handOff_ends carry h]
    exact (hclosed.askFlag 7 false).ports

end Sys2Proof.Machine
end

section

-- One thread per proof would pass the memory limit of the build: each has a stack of its own.
set_option Elab.async false

/-! # Proofs: tariff requests and crediting -/

namespace Sys2Proof.Machine

/-! ### Tariff requests (R141 to R143) -/

/-- A priced contract's request of the party it names is judged by its own rule. -/
theorem judgePriced_of_named {s : State} {p : Party} {c : Fin 4} {who : Fin 4 → Party} (rule : Fin 4 → State × Reply)
    (hrecord : s.img.isRecord c = false) (hp : p = who c) : judgePriced s p c.val who rule = rule c := by
  rw [judgePriced, finOf_val]
  dsimp only
  rw [hrecord, if_neg Bool.false_ne_true, if_neg (not_not_intro hp)]

/-- The change that a STAGE TARIFF makes before its notice. -/
noncomputable def State.staging (s : State) (c : Fin 4) (g : Staged) : State :=
  { s with billing := {
    contracts := s.billing.contracts.set c { s.contract c with staged := some g }
    counter := g.identity } }

/-- STAGE TARIFF past its rights step, once its conditions hold (R141). -/
theorem stageRule_accepts {s : State} {c : Fin 4} {effective percentage : Nat} {bands : List Band}
    (hfig : tariffFiguresOk bands percentage = true) (hcov : firstUncovered bands = none)
    (hlo : (s.contract c).opened.period + 1 ≤ effective) (hhi : effective ≤ (s.contract c).opened.period + 12)
    (hg : ∀ g, (s.contract c).staged = some g → g.consented = false) :
    stageRule effective bands percentage s c =
      ((s.staging c ⟨nextIdentity s.billing.counter, effective, bands, percentage, false, s.clock.time⟩).post
          (s.contractParties c) .tariffStaged c.val (BitVec.ofNat 32 (nextIdentity s.billing.counter)),
        .done .ok (be 4 (nextIdentity s.billing.counter) ++ be 4 effective ++
          optField 4 ((s.contract c).staged.map Staged.identity))) := by
  rw [stageRule]
  dsimp only
  rw [hfig, hcov, if_neg (by nofun)]
  dsimp only
  rw [if_neg (by omega)]
  cases hk : (s.contract c).staged with
  | none => rfl
  | some g =>
    have hopen : ¬g.consented = true := by rw [hg g hk]; nofun
    exact if_neg hopen

/-- Settles O39: each request by its own rule, past the judgement of the contract. -/
theorem tariffsAreStagedAndConsented : Obligations.TariffsAreStagedAndConsented := by
  intro p c s h hrecord k both
  refine ⟨fun effective bands percentage hp hfig hcov hlo hhi hg => ?_, fun g hp hg => ⟨?_, fun other hother => ?_⟩,
    fun g hp hg => ⟨fun hc => ?_, fun hc => ?_⟩⟩
  · intro identity t
    refine congrArg _ (State.request_serves h ?_)
    refine (judgePriced_of_named (s := s.mapPort p Port.take) _ hrecord hp).trans
      ((stageRule_accepts (s := s.mapPort p Port.take) hfig hcov hlo hhi hg).trans ?_)
    exact congrArg (·, _) (State.post_take t p ..)
  · refine congrArg _ (State.request_serves h ((judgePriced_of_named (s := s.mapPort p Port.take) _ hrecord hp).trans ?_))
    have hsame : ((s.mapPort p Port.take).contract c).staged = some g := hg
    rw [consentRule, hsame]
    dsimp only
    rw [if_neg (not_not_intro rfl)]; rfl
  · refine congrArg _ (State.request_completes h ((judgePriced_of_named (s := s.mapPort p Port.take) _ hrecord hp).trans ?_))
    have hsame : ((s.mapPort p Port.take).contract c).staged = some g := hg
    rw [consentRule, hsame]
    dsimp only
    rw [if_pos hother]; rfl
  · refine congrArg _ (State.request_serves h ((judgePriced_of_named (s := s.mapPort p Port.take) _ hrecord hp).trans ?_))
    have hsame : ((s.mapPort p Port.take).contract c).staged = some g := hg
    rw [withdrawRule, hsame]
    dsimp only
    rw [hc, if_neg Bool.false_ne_true]
    exact congrArg (·, _) (State.post_take (s.mapContract c fun k => { k with staged := none }) p ..)
  · refine congrArg _ (State.request_completes h ((judgePriced_of_named (s := s.mapPort p Port.take) _ hrecord hp).trans ?_))
    have hsame : ((s.mapPort p Port.take).contract c).staged = some g := hg
    rw [withdrawRule, hsame]
    dsimp only
    rw [hc]; rfl

/-! ### Crediting (R137 to R139) -/

/-- What crediting a line leaves of an account. -/
theorem Account.priceLine_frame (a : Account) (tariff : Option Tariff) (minute : Nat) (l : LastTick) :
    ∃ b, a.priceLine tariff minute l = { a with bands := b } := by
  unfold Account.priceLine
  split
  · exact ⟨_, rfl⟩
  · split
    · exact ⟨a.bands, rfl⟩
    · split
      · exact ⟨a.bands, rfl⟩
      · exact ⟨_, rfl⟩

theorem Account.creditLine_bands (a : Account) (tariff : Option Tariff) (minute : Nat) (l : LastTick) :
    (a.creditLine tariff minute l).bands = (a.priceLine tariff minute l).bands := by
  unfold Account.creditLine Account.addSubstituted
  split <;> rfl

theorem Account.creditLine_substituted (a : Account) (tariff : Option Tariff) (minute : Nat) (l : LastTick) :
    (a.creditLine tariff minute l).substituted =
      if l.substituted then (a.substituted + l.carry) % 1099511627776 else a.substituted := by
  obtain ⟨b, h⟩ := a.priceLine_frame tariff minute l
  rw [Account.creditLine, Account.addSubstituted, h]
  split <;> rfl

theorem Account.creditLine_frame (a : Account) (tariff : Option Tariff) (minute : Nat) (l : LastTick) :
    ∃ b x, a.creditLine tariff minute l = { a with bands := b, substituted := x } := by
  obtain ⟨b, h⟩ := a.priceLine_frame tariff minute l
  rw [Account.creditLine, Account.addSubstituted, h]
  split
  · exact ⟨_, _, rfl⟩
  · exact ⟨_, a.substituted, rfl⟩

theorem foldl_creditLine_frame (lines : List LastTick) (a : Account) (tariff : Option Tariff) (minute : Nat) :
    ∃ b x, lines.foldl (Account.creditLine tariff minute) a = { a with bands := b, substituted := x } := by
  induction lines generalizing a with
  | nil => exact ⟨a.bands, a.substituted, rfl⟩
  | cons l lines ih =>
    obtain ⟨b, x, h⟩ := a.creditLine_frame tariff minute l
    obtain ⟨b', x', h'⟩ := ih (a.creditLine tariff minute l)
    exact ⟨b', x', by rw [List.foldl_cons, h', h]⟩

/-- A band of an account after one of them is changed. -/
theorem Account.mapBand_get (a : Account) {b : Nat} (hb : b < 6) (f : BandAccount → BandAccount) (i : Fin 6) :
    (a.mapBand b f).bands.get i = if i.val = b then f (a.bands.get i) else a.bands.get i := by
  have hi : Fin.ofNat 6 b = i ↔ i.val = b := by
    rw [Fin.ext_iff, Fin.val_ofNat, Nat.mod_eq_of_lt hb, eq_comm]
  show (a.bands.modify (Fin.ofNat 6 b) f).get i = _
  by_cases h : i.val = b
  · rw [if_pos h, hi.mpr h, Table.get_modify_same]
  · rw [if_neg h, Table.get_modify_ne _ _ (mt hi.mp h)]

theorem BandAccount.credit_eq (x : BandAccount) (kwh price degradedPrice : Nat) (degraded : Bool) :
    x.credit kwh price degradedPrice degraded =
      if degraded then ⟨x.normal, (x.degraded + kwh) % 1099511627776, (x.charge + kwh * degradedPrice) % 18446744073709551616⟩
      else ⟨(x.normal + kwh) % 1099511627776, x.degraded, (x.charge + kwh * price) % 18446744073709551616⟩ := rfl

/-! ### The delivery entries of a second (R53) -/

theorem State.mem_deliveryLines (s : State) (c : Fin 4) (l : LastTick) : l ∈ s.deliveryLines c ↔
    ∃ i, s.img.present i = true ∧ s.img.streamContract i = some c ∧ (s.fiscal.streams.get i).last = some l := by
  simp only [State.deliveryLines, Image.presentStreams, List.mem_filterMap, List.mem_filter, List.mem_finRange, true_and,
    beq_iff_eq, and_assoc]

/-- The contract as a second's delivery entry leaves it. -/
noncomputable def State.credited (s : State) (second : Nat) (c : Fin 4) : Contract :=
  if s.deliveryLines c = [] then s.contract c
  else { s.contract c with
    opened := (s.contract c).opened.creditEntry (s.contract c).tariff ((second + s.img.dayOffset) % 86400 / 60)
      (s.deliveryLines c) s.clock.suspect }

theorem State.creditContract_contract (s : State) (second : Nat) (c d : Fin 4) :
    (s.creditContract second c).contract d = if c = d then s.credited second d else s.contract d := by
  unfold State.creditContract State.credited
  simp only [List.isEmpty_iff]
  by_cases hcd : c = d
  · subst hcd
    rw [if_pos rfl]
    split
    · rfl
    · exact State.mapContract_contract ..
  · rw [if_neg hcd]
    split
    · rfl
    · exact State.mapContract_contract_ne _ _ hcd

theorem State.creditContract_frame (s : State) (second : Nat) (c : Fin 4) :
    ∃ b, s.creditContract second c = { s with billing := b } := by
  unfold State.creditContract
  dsimp only
  split
  · exact ⟨s.billing, rfl⟩
  · exact ⟨_, rfl⟩

theorem foldl_creditContract_contract (second : Nat) {l : List (Fin 4)} (hl : l.Nodup) (s : State) (d : Fin 4) :
    (l.foldl (State.creditContract second) s).contract d = if d ∈ l then s.credited second d else s.contract d := by
  induction l generalizing s with
  | nil => rfl
  | cons c l ih =>
    obtain ⟨hc, hl⟩ := List.nodup_cons.mp hl
    rw [List.foldl_cons, ih hl]
    by_cases hd : d ∈ l
    · have hne : c ≠ d := fun h => hc (h ▸ hd)
      obtain ⟨b, hframe⟩ := s.creditContract_frame second c
      have hcontract := s.creditContract_contract second c d
      rw [if_neg hne] at hcontract
      rw [if_pos hd, if_pos (List.mem_cons_of_mem _ hd), State.credited, State.credited, hcontract, hframe]
      rfl
    · rw [if_neg hd, State.creditContract_contract]
      by_cases hcd : c = d
      · rw [if_pos hcd, if_pos (by simp [hcd])]
      · rw [if_neg hcd, if_neg (by simp [hd, Ne.symm hcd])]

theorem State.creditDelivery_contract (s : State) (second : Nat) (c : Fin 4) :
    (s.creditDelivery second).contract c = s.credited second c := by
  rw [State.creditDelivery, foldl_creditContract_contract second (List.nodup_finRange 4), if_pos (List.mem_finRange c)]

/-- Settles O40: by the tariff for the bands, and contract by contract for the delivery. -/
theorem carriesAreCreditedToTheirBand : Obligations.CarriesAreCreditedToTheirBand := by
  refine ⟨fun a t minute b pb l hb hpb hlt => ?_, fun a tariff minute l => ⟨fun i => ?_, a.creditLine_substituted tariff minute l⟩,
    fun a tariff minute lines suspect => ?_, fun s second c => ⟨s.mem_deliveryLines c, s.creditDelivery_contract second c⟩⟩
  · obtain ⟨hlen, hcontains, hbefore⟩ := List.findIdx?_eq_some_iff_getElem.mp hb
    have hget : t.bands[b] = pb := Option.some.inj ((List.getElem?_eq_getElem hlen).symm.trans hpb)
    refine ⟨hget ▸ hcontains, fun j x hj hx => ?_, fun i => ?_⟩
    · have hjlen : j < t.bands.length := hj.trans hlen
      have hjx : t.bands[j] = x := Option.some.inj ((List.getElem?_eq_getElem hjlen).symm.trans hx)
      exact hjx ▸ Bool.eq_false_iff.mpr (hbefore j hj)
    · have hprice : a.priceLine (some t) minute l =
          a.mapBand b fun x => x.credit l.carry pb.band.price pb.degraded l.degraded := by
        simp only [Account.priceLine, hb, hpb]
      rw [Account.creditLine_bands, hprice, Account.mapBand_get a hlt, BandAccount.credit_eq]
  · have hprice : a.priceLine none minute l = a.mapBand 0 fun x => x.credit l.carry 0 0 false := rfl
    rw [Account.creditLine_bands, hprice, Account.mapBand_get a (by omega), BandAccount.credit_eq, Nat.mul_zero, Nat.add_zero]
    simp only [Fin.val_eq_zero_iff, Bool.false_eq_true, if_false]
  · intro u v
    obtain ⟨b, x, h⟩ := foldl_creditLine_frame lines a tariff minute
    have hu : u = { v with
        errorSeconds := raiseSeconds v.errorSeconds (lines.any fun l => l.substituted), suspect := v.suspect || suspect } := rfl
    have hv : v = { a with bands := b, substituted := x } := h
    rw [hu]
    refine ⟨rfl, rfl, by rw [hv], fun he => ?_⟩
    rw [hv]
    exact raiseSeconds_eq he _

end Sys2Proof.Machine
end

section

-- One thread per proof would pass the memory limit of the build: each has a stack of its own.
set_option Elab.async false

/-! # Proofs: the boundary of a period -/

namespace Sys2Proof.Machine

/-! ### A period opens (R144) -/

/-- The staged change that takes effect in a period. -/
noncomputable def Contract.effectiveIn (k : Contract) (period : Nat) : Option Staged := k.staged.filter fun g => g.effective == period

/-- The tariff in force once a period has opened. -/
noncomputable def Contract.tariffIn (k : Contract) (period : Nat) : Option Tariff :=
  match k.effectiveIn period with
  | some g => if g.consented then
      some ⟨g.identity, g.bands.map fun b => ⟨b, b.price * g.percentage / 100⟩, g.percentage⟩ else k.tariff
  | none => k.tariff

/-- The contract once a period has opened: only tariff and staged change move. -/
noncomputable def Contract.opening (k : Contract) : Contract :=
  { k with
    tariff := k.tariffIn k.period
    staged := if (k.effectiveIn k.period).isSome then none else k.staged }

/-- What is posted as a period opens. -/
noncomputable def State.openTold (s : State) (c : Fin 4) (effective : Option Staged) : State :=
  match effective with
  | some g => s.post [s.img.seller c, s.img.buyer c] (if g.consented then .tariffApplied else .tariffLapsed) c.val
      (BitVec.ofNat 32 g.identity)
  | none => s

theorem Contract.effectiveIn_some {k : Contract} {n : Nat} {g : Staged} (h : k.effectiveIn n = some g) :
    k.staged = some g ∧ g.effective = n := by
  unfold Contract.effectiveIn at h
  obtain ⟨h1, h2⟩ := Option.filter_eq_some_iff.mp h
  exact ⟨h1, by simpa using h2⟩

theorem Contract.effectiveIn_none {k : Contract} {n : Nat} (h : k.effectiveIn n = none) {g : Staged} (hg : k.staged = some g) :
    g.effective ≠ n := by
  intro he
  rw [Contract.effectiveIn, hg] at h
  simp [he] at h

theorem State.openTariff_of_none {s : State} {c : Fin 4} (h : (s.contract c).effectiveIn (s.contract c).period = none) :
    s.openTariff c = s := by
  unfold State.openTariff
  dsimp only
  cases hg : (s.contract c).staged with
  | none => rfl
  | some g => exact if_pos (Contract.effectiveIn_none h hg)

/-- The contract with its effective change put in force, or dropped for lack of consent. -/
noncomputable def Contract.takeUp (g : Staged) (k : Contract) : Contract :=
  { k with
    tariff := if g.consented then some (Tariff.fix g.identity g.bands g.percentage) else k.tariff
    staged := none }

theorem State.openTariff_of_some {s : State} {c : Fin 4} {g : Staged}
    (h : (s.contract c).effectiveIn (s.contract c).period = some g) : s.openTariff c =
      (s.mapContract c (Contract.takeUp g)).post [s.img.seller c, s.img.buyer c]
        (if g.consented then .tariffApplied else .tariffLapsed) c.val (BitVec.ofNat 32 g.identity) := by
  obtain ⟨hg, he⟩ := Contract.effectiveIn_some h
  unfold State.openTariff Contract.takeUp
  dsimp only
  rw [hg]
  dsimp only
  rw [if_neg (not_not_intro he)]
  cases g.consented <;> rfl

/-- R144, by whether a staged change is effective. -/
theorem State.openTariff_spec (s : State) (c : Fin 4) :
    (s.openTariff c).contract c = (s.contract c).opening ∧
    (∀ d, d ≠ c → (s.openTariff c).contract d = s.contract d) ∧
    Alike (s.openTariff c) (s.openTold c ((s.contract c).effectiveIn (s.contract c).period)) := by
  cases he : (s.contract c).effectiveIn (s.contract c).period with
  | none =>
    rw [State.openTariff_of_none he, Contract.opening, Contract.tariffIn, he]
    exact ⟨rfl, fun _ _ => rfl, Alike.refl s⟩
  | some g =>
    have hcontract : ∀ d, (s.openTariff c).contract d = (s.mapContract c (Contract.takeUp g)).contract d := fun d => by
      rw [State.openTariff_of_some he, State.contract, State.post_billing]; rfl
    refine ⟨?_, fun d hd => (hcontract d).trans (State.mapContract_contract_ne _ _ hd.symm), ?_⟩
    · rw [hcontract, State.mapContract_contract, Contract.opening, Contract.tariffIn, he]; rfl
    · have hset : Alike (s.mapContract c (Contract.takeUp g)) s := ⟨rfl, rfl, rfl, rfl, rfl⟩
      rw [State.openTariff_of_some he]
      exact hset.post ..

/-! ### A period closes (R147) -/

/-- The contract as its period ends: its account closed, the number of the next period. -/
noncomputable def Contract.ended (boundary : Nat) (dropped : Bool) (k : Contract) : Contract :=
  { k with closing := if dropped then none else some { k.opened with finish := boundary }, period := k.period + 1 }

/-- The period closed and the next one opened, before the closing account reaches the store. -/
noncomputable def State.reopened (s : State) (c : Fin 4) (boundary : Nat) (dropped : Bool) : State :=
  let s2 := (s.mapContract c (Contract.ended boundary dropped)).openTariff c
  (s2.mapContract c fun k =>
    { k with opened := s2.openAccount k.period boundary (boundary + s.periodSpan c) k.tariff }).post
      (s.contractParties c) .periodClosed c.val (BitVec.ofNat 32 (s.contract c).opened.period)

theorem State.closePeriod_eq (s : State) (c : Fin 4) (boundary : Nat) (dropped : Bool) : s.closePeriod c boundary dropped =
    if dropped then s.reopened c boundary dropped
    else (s.reopened c boundary dropped).handAccount c { (s.contract c).opened with finish := boundary } := rfl

theorem State.openAccount_eq (s : State) (period start finish : Nat) (tariff : Option Tariff) :
    s.openAccount period start finish tariff = { Account.empty with
      period := period, start := start, finish := finish, identity := (tariff.map Tariff.identity).getD 0
      bandCount := (tariff.map fun x => x.bands.length).getD 1
      recommission := s.station.state == .reconfiguring, suspect := s.clock.suspect } := by
  cases tariff <;> rfl

theorem State.reopened_contract (s : State) (c : Fin 4) (boundary : Nat) (dropped : Bool) :
    (s.reopened c boundary dropped).contract c =
      { (Contract.ended boundary dropped (s.contract c)).opening with
        opened := s.openAccount ((s.contract c).period + 1) boundary (boundary + s.periodSpan c)
          ((s.contract c).tariffIn ((s.contract c).period + 1)) } := by
  obtain ⟨hopen, -, -⟩ := (s.mapContract c (Contract.ended boundary dropped)).openTariff_spec c
  obtain ⟨p, b, hframe⟩ := (s.mapContract c (Contract.ended boundary dropped)).openTariff_frame c
  have hstation : ((s.mapContract c (Contract.ended boundary dropped)).openTariff c).station = s.station := by rw [hframe]; rfl
  have hclock : ((s.mapContract c (Contract.ended boundary dropped)).openTariff c).clock = s.clock := by rw [hframe]; rfl
  rw [State.mapContract_contract] at hopen
  rw [State.reopened, State.contract, State.post_billing]
  refine (State.mapContract_contract _ c _).trans ?_
  rw [hopen, State.openAccount_eq, State.openAccount_eq, hstation, hclock]
  rfl

theorem State.reopened_contract_ne (s : State) {c d : Fin 4} (boundary : Nat) (dropped : Bool) (h : d ≠ c) :
    (s.reopened c boundary dropped).contract d = s.contract d := by
  obtain ⟨-, hother, -⟩ := (s.mapContract c (Contract.ended boundary dropped)).openTariff_spec c
  rw [State.reopened, State.contract, State.post_billing]
  refine (State.mapContract_contract_ne _ _ h.symm).trans ((hother d h).trans ?_)
  exact State.mapContract_contract_ne _ _ h.symm

theorem State.reopened_store (s : State) (c : Fin 4) (boundary : Nat) (dropped : Bool) :
    (s.reopened c boundary dropped).store = s.store := by
  obtain ⟨p, b, hframe⟩ := (s.mapContract c (Contract.ended boundary dropped)).openTariff_frame c
  rw [State.reopened, State.post_store, hframe]; rfl

/-- R144, R147: the notices of a period that closes, as posted from the state before. -/
theorem State.reopened_ports (s : State) (c : Fin 4) (boundary : Nat) (dropped : Bool) :
    (s.reopened c boundary dropped).ports =
      ((s.openTold c ((s.contract c).effectiveIn ((s.contract c).period + 1))).post [s.img.seller c, s.img.buyer c]
        .periodClosed c.val (BitVec.ofNat 32 (s.contract c).opened.period)).ports := by
  obtain ⟨-, -, halike⟩ := (s.mapContract c (Contract.ended boundary dropped)).openTariff_spec c
  rw [State.mapContract_contract] at halike
  have htold : Alike ((s.mapContract c (Contract.ended boundary dropped)).openTold c
      ((s.contract c).effectiveIn ((s.contract c).period + 1)))
      (s.openTold c ((s.contract c).effectiveIn ((s.contract c).period + 1))) := by
    have hset : Alike (s.mapContract c (Contract.ended boundary dropped)) s := ⟨rfl, rfl, rfl, rfl, rfl⟩
    unfold State.openTold
    split
    · exact hset.post ..
    · exact hset
  have h := halike.trans htold
  rw [State.reopened]
  refine (Alike.post (s := State.mapContract _ c _) ?_ ..).ports
  exact ⟨h.ports, h.station, h.clock, h.flags, h.consumers⟩

/-! ### What a boundary decides (R146, R149) -/

theorem Store.enqueue_sequence (st : Store) (op : ArrayOp) : (st.enqueue op).sequence = st.sequence := by
  rcases st.enqueue_cases op with h | ⟨n, -, h⟩ <;> rw [h]

/-- The contract once the boundary has moved on. -/
noncomputable def State.pastBoundary (s : State) (c : Fin 4) (span : Nat) : State :=
  s.mapContract c fun k => { k with nextBoundary := k.nextBoundary + span }

theorem State.takeBoundary_eq {s : State} {c : Fin 4} {label : Nat} (h : (s.contract c).nextBoundary = label) :
    s.takeBoundary label c = (s.settleBoundary c label).pastBoundary c (s.periodSpan c) := if_pos h

theorem State.settleBoundary_waiting {s : State} {c : Fin 4} (label : Nat) (h : (s.contract c).closing.isSome = true) :
    s.settleBoundary c label = s.extendPeriod c label 2 := if_pos h

theorem State.settleBoundary_held {s : State} {c : Fin 4} (label : Nat) (h : (s.contract c).closing = none)
    (hh : s.store.holdsRecord c.val (s.contract c).opened.period = true) :
    s.settleBoundary c label = s.reopened c label true := by
  rw [State.settleBoundary]
  rw [h, if_neg (by nofun), if_pos hh]; rfl

theorem State.settleBoundary_room {s : State} {c : Fin 4} (label : Nat) (h : (s.contract c).closing = none)
    (hh : s.store.holdsRecord c.val (s.contract c).opened.period = false)
    (hr : s.store.hasRoom (s.contract c).opened.units = true) : s.settleBoundary c label =
      (s.reopened c label false).handAccount c { (s.contract c).opened with finish := label } := by
  rw [State.settleBoundary]
  rw [h, if_neg (by nofun), if_neg (by rw [hh]; nofun), if_pos hr]; rfl

theorem State.settleBoundary_full {s : State} {c : Fin 4} (label : Nat) (h : (s.contract c).closing = none)
    (hh : s.store.holdsRecord c.val (s.contract c).opened.period = false)
    (hr : s.store.hasRoom (s.contract c).opened.units = false) : s.settleBoundary c label = s.extendPeriod c label 1 := by
  rw [State.settleBoundary]
  rw [h, if_neg (by nofun), if_neg (by rw [hh]; nofun), if_neg (by rw [hr]; nofun)]

/-- The contract as its period is extended (R149). -/
noncomputable def Contract.extend (finish : Nat) (k : Contract) : Contract :=
  { k with opened := { k.opened with extended := true, finish := finish } }

theorem Contract.extend_nextBoundary (n : Nat) (k : Contract) : (Contract.extend n k).nextBoundary = k.nextBoundary := rfl

theorem State.extendPeriod_spec (s : State) (c : Fin 4) (boundary cause : Nat) :
    (s.extendPeriod c boundary cause).contract c = Contract.extend (boundary + s.periodSpan c) (s.contract c) ∧
    (∀ d, d ≠ c → (s.extendPeriod c boundary cause).contract d = s.contract d) ∧
    (s.extendPeriod c boundary cause).store = s.store ∧
    (s.extendPeriod c boundary cause).ports = (s.post [s.img.seller c, s.img.buyer c] .periodExtended c.val
      (BitVec.ofNat 32 (s.contract c).opened.period) 0 cause).ports := by
  have hcontract : ∀ d, (s.extendPeriod c boundary cause).contract d =
      (s.mapContract c (Contract.extend (boundary + s.periodSpan c))).contract d := fun d => by
    rw [State.extendPeriod, State.contract, State.post_billing]; rfl
  refine ⟨(hcontract c).trans (State.mapContract_contract ..),
    fun d hd => (hcontract d).trans (State.mapContract_contract_ne _ _ hd.symm), ?_, ?_⟩
  · rw [State.extendPeriod, State.post_store]; rfl
  · exact State.post_ports_congr (t := s)
      (s := s.mapContract c (Contract.extend (boundary + s.periodSpan c))) rfl rfl rfl ..

/-- Whatever a boundary decides, no other contract changes and the boundary itself stands. -/
theorem State.settleBoundary_contracts (s : State) (c : Fin 4) (label : Nat) :
    ((s.settleBoundary c label).contract c).nextBoundary = (s.contract c).nextBoundary ∧
    ∀ d, d ≠ c → (s.settleBoundary c label).contract d = s.contract d := by
  have hextend : ∀ cause, ((s.extendPeriod c label cause).contract c).nextBoundary = (s.contract c).nextBoundary ∧
      ∀ d, d ≠ c → (s.extendPeriod c label cause).contract d = s.contract d := fun cause => by
    obtain ⟨hc, hd, -⟩ := s.extendPeriod_spec c label cause
    exact ⟨by rw [hc, Contract.extend_nextBoundary], hd⟩
  have hreopen : ∀ dropped, ((s.reopened c label dropped).contract c).nextBoundary = (s.contract c).nextBoundary ∧
      ∀ d, d ≠ c → (s.reopened c label dropped).contract d = s.contract d := fun dropped =>
    ⟨by rw [State.reopened_contract]; rfl, fun d hd => s.reopened_contract_ne label dropped hd⟩
  cases hclosing : (s.contract c).closing with
  | some a => rw [State.settleBoundary_waiting label (by rw [hclosing]; rfl)]; exact hextend 2
  | none =>
    cases hheld : s.store.holdsRecord c.val (s.contract c).opened.period with
    | true => rw [State.settleBoundary_held label hclosing hheld]; exact hreopen true
    | false =>
      cases hroom : s.store.hasRoom (s.contract c).opened.units with
      | true => rw [State.settleBoundary_room label hclosing hheld hroom]; exact hreopen false
      | false => rw [State.settleBoundary_full label hclosing hheld hroom]; exact hextend 1

/-- R144, R147: what a period that closes leaves, before the boundary moves on. -/
theorem State.reopened_opens {s t : State} {c : Fin 4} {label : Nat} {dropped : Bool}
    (hcontract : t.contract c = (s.reopened c label dropped).contract c)
    (hports : t.ports = (s.reopened c label dropped).ports) :
    let k := s.contract c
    let u := (t.pastBoundary c (s.periodSpan c)).contract c
    u.period = k.period + 1 ∧ u.tariff = k.tariffIn (k.period + 1) ∧
      u.staged = (if (k.effectiveIn (k.period + 1)).isSome then none else k.staged) ∧
      u.opened = s.openAccount (k.period + 1) label (label + s.periodSpan c) (k.tariffIn (k.period + 1)) ∧
      u.nextBoundary = k.nextBoundary + s.periodSpan c ∧
      u.closing = (if dropped then none else some { k.opened with finish := label }) ∧
      (t.pastBoundary c (s.periodSpan c)).ports = ((s.openTold c (k.effectiveIn (k.period + 1))).post
        [s.img.seller c, s.img.buyer c] .periodClosed c.val (BitVec.ofNat 32 k.opened.period)).ports := by
  intro k u
  have hu : u = _ := (State.mapContract_contract t c _).trans
    (congrArg (fun k : Contract => { k with nextBoundary := k.nextBoundary + s.periodSpan c })
      (hcontract.trans (s.reopened_contract c label dropped)))
  rw [hu]
  exact ⟨rfl, rfl, rfl, rfl, rfl, rfl, hports.trans (s.reopened_ports c label dropped)⟩

/-! ### Room in thought (R159) -/

theorem Store.thinkAll_eq (st : Store) (pos : ThoughtPos) (l : List Nat) :
    st.thinkAll pos l = (l.foldlM st.thinkPlace pos).isSome := by
  induction l generalizing pos with
  | nil => rfl
  | cons m l ih =>
    rw [Store.thinkAll, List.foldlM_cons]
    cases st.thinkPlace pos m with
    | none => rfl
    | some x => exact ih x

/-- R159: a sector that the walk passes over. -/
def Store.passedOver (st : Store) (n : Nat) : Prop :=
  (st.sector n).state = .retired ∨
    (st.sector n).retiring = true ∧ ((st.sector n).state = .releasable ∨ (st.sector n).state = .erasing)

/-- R159: a sector that the walk takes. -/
def Store.takeable (st : Store) (used : List Nat) (n : Nat) : Prop :=
  (st.sector n).retiring = false ∧ n ∉ used ∧
    ((st.sector n).state = .erased ∨ (st.sector n).state = .erasing ∨ (st.sector n).state = .releasable)

theorem Store.not_passedOver_of_takeable {st : Store} {used : List Nat} {n : Nat} (h : st.takeable used n) :
    ¬st.passedOver n := by
  obtain ⟨hr, -, hs⟩ := h
  rintro (hp | ⟨hp, -⟩)
  · rcases hs with hs | hs | hs <;> rw [hs] at hp <;> cases hp
  · rw [hr] at hp; cases hp

/-- One step of the walk: over a sector, to it, or no further. -/
theorem Store.roomWalk_cons (st : Store) (used : List Nat) (n : Nat) (l : List Nat) :
    (st.passedOver n → st.roomWalk used (n :: l) = st.roomWalk used l) ∧
    (st.takeable used n → st.roomWalk used (n :: l) = some n) ∧
    (¬st.passedOver n → ¬st.takeable used n → st.roomWalk used (n :: l) = none) := by
  unfold Store.passedOver Store.takeable
  rw [Store.roomWalk]
  refine ⟨?_, ?_, ?_⟩
  · rintro (h | ⟨h1, h2⟩)
    · rw [if_pos h]
    · rw [if_pos h1, if_pos h2]
      split <;> rfl
  · rintro ⟨hr, hn, hs⟩
    rw [if_neg (by rcases hs with h | h | h <;> simp [h]), hr, if_neg (by nofun), if_pos ⟨hs, by simpa using hn⟩]
  · intro hp ht
    obtain ⟨h1, h2⟩ := not_or.mp hp
    rw [if_neg h1]
    by_cases hr : (st.sector n).retiring = true
    · rw [if_pos hr, if_neg fun hs => h2 ⟨hr, hs⟩]
    · rw [if_neg hr, if_neg fun hs => ht ⟨by simpa using hr, by simpa using hs.2, hs.1⟩]

theorem Store.roomWalk_eq_some_iff (st : Store) (used : List Nat) (l : List Nat) (n : Nat) :
    st.roomWalk used l = some n ↔
      ∃ before after, l = before ++ n :: after ∧ (∀ x ∈ before, st.passedOver x) ∧ st.takeable used n := by
  induction l with
  | nil => simp [Store.roomWalk]
  | cons a l ih =>
    obtain ⟨hover, htake, hstop⟩ := st.roomWalk_cons used a l
    by_cases hp : st.passedOver a
    · rw [hover hp, ih]
      constructor
      · rintro ⟨before, after, rfl, hb, hn⟩
        exact ⟨a :: before, after, rfl, List.forall_mem_cons.mpr ⟨hp, hb⟩, hn⟩
      · rintro ⟨before, after, hl, hb, hn⟩
        cases before with
        | nil =>
          obtain ⟨rfl, -⟩ := List.cons.inj hl
          exact absurd hp (Store.not_passedOver_of_takeable hn)
        | cons b before =>
          obtain ⟨rfl, rfl⟩ := List.cons.inj hl
          exact ⟨before, after, rfl, (List.forall_mem_cons.mp hb).2, hn⟩
    · have hhead : ∀ before after, a :: l = before ++ n :: after → (∀ x ∈ before, st.passedOver x) → n = a := by
        intro before after hl hb
        cases before with
        | nil => exact (List.cons.inj hl).1.symm
        | cons b before =>
          obtain ⟨rfl, -⟩ := List.cons.inj hl
          exact absurd (hb a List.mem_cons_self) hp
      by_cases ht : st.takeable used a
      · rw [htake ht, Option.some.injEq]
        constructor
        · rintro rfl
          exact ⟨[], l, rfl, nofun, ht⟩
        · rintro ⟨before, after, hl, hb, -⟩
          exact (hhead before after hl hb).symm
      · rw [hstop hp ht]
        refine ⟨nofun, ?_⟩
        rintro ⟨before, after, hl, hb, hn⟩
        exact absurd (hhead before after hl hb ▸ hn) ht

theorem Store.thinkPlace_walks {st : Store} {pos : ThoughtPos} {m : Nat} (h : 128 < pos.next + m) : st.thinkPlace pos m =
    (st.roomWalk pos.used (ringAfter pos.sector)).map fun n => ⟨n, m, n :: pos.used⟩ := by
  rw [Store.thinkPlace, if_neg (by omega)]
  cases st.roomWalk pos.used (ringAfter pos.sector) <;> rfl

theorem Store.hasRoom_eq (st : Store) (m : Nat) :
    st.hasRoom m = ((st.reserved ++ [m]).foldlM st.thinkPlace ⟨st.writeSector,
      if (st.sector st.writeSector).state = .filling ∧ (st.sector st.writeSector).retiring = false ∨
        (st.sector st.writeSector).state = .erasing then st.nextUnit else 129, [st.writeSector]⟩).isSome := by
  have hfirst : (st.writable || st.writeErasing) = true ↔
      (st.sector st.writeSector).state = .filling ∧ (st.sector st.writeSector).retiring = false ∨
        (st.sector st.writeSector).state = .erasing := by
    simp [Store.writable, Store.writeErasing]
  rw [Store.hasRoom, Store.thinkAll_eq]
  simp only [hfirst]

/-- Settles O41: by what the boundary decides, and by the walk for the room. -/
theorem periodsCloseOrExtend : Obligations.PeriodsCloseOrExtend := by
  refine ⟨fun s c label hb => ?_, Store.hasRoom_eq, fun st pos m => ⟨fun h => if_pos h, fun h => ⟨fun x hx => ?_, fun n => ?_⟩⟩⟩
  · intro k t u next both effective tariff opens
    have ht : t = (s.settleBoundary c label).pastBoundary c (s.periodSpan c) := State.takeBoundary_eq hb
    obtain ⟨hnext, hothers⟩ := s.settleBoundary_contracts c label
    have hspan : (s.contract c).nextBoundary + s.periodSpan c = next := congrArg (· + s.periodSpan c) hb
    have hopened : s.openAccount (k.period + 1) label next tariff = _ := State.openAccount_eq ..
    refine ⟨?_, fun d hd => ?_, fun hclosing hheld hroom => ?_, fun hclosing hheld => ?_, fun hfull => ?_⟩
    · show (t.contract c).nextBoundary = next
      rw [ht, State.pastBoundary, State.mapContract_contract, hnext]
      exact hspan
    · rw [ht]
      exact (State.mapContract_contract_ne _ _ hd.symm).trans (hothers d hd)
    · rw [State.settleBoundary_room label hclosing hheld hroom] at ht
      obtain ⟨hperiod, htariff, hstaged, hopen, -, hclose, hports⟩ := State.reopened_opens (s := s) (c := c) (label := label)
        (dropped := false) (t := (s.reopened c label false).handAccount c { (s.contract c).opened with finish := label }) rfl rfl
      rw [← ht] at hperiod htariff hstaged hopen hclose hports
      refine ⟨⟨hperiod, htariff, hstaged, hopen.trans hopened, hports⟩, hclose, ?_⟩
      rw [ht]
      refine (Store.enqueue_sequence _ _).trans ?_
      show ((s.reopened c label false).store.sequence + 1) % 4294967296 = _
      rw [State.reopened_store]
    · rw [State.settleBoundary_held label hclosing hheld] at ht
      obtain ⟨hperiod, htariff, hstaged, hopen, -, hclose, hports⟩ := State.reopened_opens (s := s) (c := c) (label := label)
        (dropped := true) (t := s.reopened c label true) rfl rfl
      rw [← ht] at hperiod htariff hstaged hopen hclose hports
      refine ⟨⟨hperiod, htariff, hstaged, hopen.trans hopened, hports⟩, hclose, ?_⟩
      rw [ht]
      exact s.reopened_store c label true
    · have hsettle : s.settleBoundary c label = s.extendPeriod c label (if k.closing.isSome then 2 else 1) := by
        by_cases hclosing : k.closing.isSome = true
        · rw [if_pos hclosing]
          exact State.settleBoundary_waiting label hclosing
        · obtain ⟨hheld, hroom⟩ := hfull.resolve_left hclosing
          rw [if_neg hclosing]
          exact State.settleBoundary_full label (Option.not_isSome_iff_eq_none.mp hclosing) hheld hroom
      obtain ⟨hcontract, -, hstore, hports⟩ := s.extendPeriod_spec c label (if k.closing.isSome then 2 else 1)
      rw [hsettle] at ht
      refine ⟨?_, ?_, ?_⟩
      · show t.contract c = _
        rw [ht, State.pastBoundary, State.mapContract_contract, hcontract, Contract.extend]
        dsimp only
        rw [hspan]; rfl
      · rw [ht]; exact hstore
      · rw [ht]; exact hports
  · rw [Store.thinkPlace_walks h] at hx
    obtain ⟨n, -, rfl⟩ := Option.map_eq_some_iff.mp hx
    exact ⟨n, rfl⟩
  · rw [Store.thinkPlace_walks h, Option.map_eq_some_iff]
    refine Iff.trans ⟨?_, fun hn => ⟨n, hn, rfl⟩⟩ (st.roomWalk_eq_some_iff pos.used (ringAfter pos.sector) n)
    rintro ⟨a, ha, he⟩
    obtain ⟨rfl, -, -⟩ := (ThoughtPos.mk.injEq ..).mp he
    exact ha

end Sys2Proof.Machine
end

section

-- One thread per proof would pass the memory limit of the build: each has a stack of its own.
set_option Elab.async false

/-! # Proofs: requests for records, and the array at work -/

namespace Sys2Proof.Machine

/-! ### RELEASE RECORD and READ RECORD (R161, R165) -/

/-- A request whose rule makes it wait leaves the slot WORKING. -/
theorem State.request_waits {s u : State} {p : Party} {r : Request} {rule : State → State × Reply} (h : Serves s p)
    (hrule : rule (s.mapPort p Port.take) = (u.mapPort p Port.take, .waiting)) : s.request p r rule = awaiting u p := by
  rw [State.request_served h, hrule]; rfl

section Stored
variable {s : State} {p : Party} {sector unit : Nat}

/-- A sector that holds records: FILLING, FULL or RELEASABLE. -/
def holdsRecords (x : RecState) : Prop := x = .filling ∨ x = .full ∨ x = .releasable

theorem judgeStored_of_place (rule : State × Reply) (hlo : 10 ≤ sector) (hhi : sector ≤ 63) (hunit : unit ≤ 127) :
    (holdsRecords (s.store.sector sector).state → judgeStored s sector unit rule = rule) ∧
    (¬holdsRecords (s.store.sector sector).state → judgeStored s sector unit rule = refuse s .gone) := by
  unfold judgeStored holdsRecords
  rw [if_neg (by omega)]
  cases (s.store.sector sector).state <;> simp

theorem releaseRule_of_entry {e : IndexEntry} {v : ValidRecord} (he : s.store.entryAt sector unit = some e)
    (hv : e.valid = some v) (hlo : 10 ≤ sector) (hhi : sector ≤ 63) (hunit : unit ≤ 127)
    (hbusy : holdsRecords (s.store.sector sector).state) : releaseRule p sector unit s =
      let bySeller := partyCode p == v.seller
      if !bySeller && partyCode p != v.buyer then refuse s .denied
      else if (if bySeller then v.sellerMark else v.buyerMark) then
        answer s (be 1 sector ++ be 1 unit ++ be 1 v.contract ++ be 4 v.period ++ markByte v.sellerMark ++
          markByte v.buyerMark)
      else (s.mapStore fun st => st.enqueue (.mark p sector unit bySeller v.contract v.period false), .waiting) := by
  rw [releaseRule, ((judgeStored_of_place _ hlo hhi hunit).1 hbusy), he, Option.bind_some, hv]

theorem readRecordRule_of_entry {e : IndexEntry} (he : s.store.entryAt sector unit = some e) (hlo : 10 ≤ sector)
    (hhi : sector ≤ 63) (hunit : unit ≤ 127) (hbusy : holdsRecords (s.store.sector sector).state) {part : Nat}
    (hpart : part ≤ e.lastPart) : readRecordRule p sector unit part s =
      (s.mapStore fun st => st.enqueue (.read p e part false), .waiting) := by
  rw [readRecordRule, ((judgeStored_of_place _ hlo hhi hunit).1 hbusy), he]
  exact if_neg (by omega)

end Stored

theorem markByte_true : markByte true = [0x01#8] := rfl

/-- What the end of a mark program leaves, as R161 says it. -/
theorem exec_markProgramDone {p : Party} {sector unit contract period : Nat} {bySeller : Bool} {mark : Byte} {s : State}
    (h : s.store.current = some (.mark p sector unit bySeller contract period false)) :
    exec (.markProgramDone mark) s = .next (s.markDone p sector unit bySeller contract period mark) := by
  show execMarkProgramDone mark s = _
  rw [execMarkProgramDone, h]; rfl

/-- Settles O42: the requests by the sector, the entry and the marks; the ends by what the array is doing. -/
theorem recordRequestsWaitAndAreServed : Obligations.RecordRequestsWaitAndAreServed := by
  refine ⟨fun p sector unit s h hlo hhi hunit => ?_, fun p e part s h => ?_,
    fun p sector unit contract period bySeller mark s h => ?_⟩
  · intro state busy
    refine ⟨fun hnot => ⟨?_, fun part => ?_⟩, fun e hbusy he => ⟨fun part hpart => ?_, fun v hv => ?_⟩⟩
    · refine congrArg _ (State.request_completes h ?_)
      exact (judgeStored_of_place (s := s.mapPort p Port.take) _ hlo hhi hunit).2 hnot
    · refine congrArg _ (State.request_completes h ?_)
      exact (judgeStored_of_place (s := s.mapPort p Port.take) _ hlo hhi hunit).2 hnot
    · refine congrArg _ (State.request_waits h ?_)
      exact readRecordRule_of_entry (s := s.mapPort p Port.take) he hlo hhi hunit hbusy hpart
    · have hrule := releaseRule_of_entry (s := s.mapPort p Port.take) (p := p) he hv hlo hhi hunit hbusy
      refine ⟨fun hs hm => ?_, fun hs hm => ?_, fun hs hb hm => ?_, fun hs hb hm => ?_, fun hs hb => ?_⟩
      · simp only [hs, hm, beq_self_eq_true, Bool.not_true, Bool.false_and, Bool.false_eq_true, if_false, if_true] at hrule
        exact congrArg _ (State.request_waits h hrule)
      · simp only [hs, hm, beq_self_eq_true, Bool.not_true, Bool.false_and, Bool.false_eq_true, if_false, if_true,
          markByte_true] at hrule
        exact congrArg _ (State.request_completes h hrule)
      · have hne : (v.buyer == v.seller) = false := beq_eq_false_iff_ne.mpr (hb ▸ hs)
        simp only [hb, hne, hm, bne_self_eq_false, Bool.and_false, Bool.false_eq_true, if_false] at hrule
        exact congrArg _ (State.request_waits h hrule)
      · have hne : (v.buyer == v.seller) = false := beq_eq_false_iff_ne.mpr (hb ▸ hs)
        simp only [hb, hne, hm, bne_self_eq_false, Bool.and_false, Bool.false_eq_true, if_false, if_true, markByte_true] at hrule
        exact congrArg _ (State.request_completes h hrule)
      · have hne : (partyCode p == v.seller) = false := beq_eq_false_iff_ne.mpr hs
        have hne' : (partyCode p != v.buyer) = true := bne_iff_ne.mpr hb
        simp only [hne, hne', Bool.not_false, Bool.and_true, if_true] at hrule
        exact congrArg _ (State.request_completes h hrule)
  · show execRecordReadDone s = _
    rw [execRecordReadDone, h]; rfl
  · intro a cells st
    rw [exec_markProgramDone h]
    exact ⟨fun hm => congrArg _ (if_pos hm), fun hm => congrArg _ (if_neg hm)⟩

end Sys2Proof.Machine
end

section

-- One thread per proof would pass the memory limit of the build: each has a stack of its own.
set_option Elab.async false

/-! # Proofs: record sectors and the end of an erase -/

namespace Sys2Proof.Machine

/-! ### Record sectors -/

theorem recIndex_inj {a b : Nat} (ha : 10 ≤ a) (ha' : a ≤ 63) (hb : 10 ≤ b) (hb' : b ≤ 63) : recIndex a = recIndex b ↔ a = b := by
  refine ⟨fun h => ?_, congrArg recIndex⟩
  have hval : (a - 10) % 54 = (b - 10) % 54 := congrArg Fin.val h
  rw [Nat.mod_eq_of_lt (Nat.sub_lt_right_of_lt_add ha (Nat.lt_succ_of_le ha')),
    Nat.mod_eq_of_lt (Nat.sub_lt_right_of_lt_add hb (Nat.lt_succ_of_le hb'))] at hval
  rw [← Nat.sub_add_cancel ha, hval, Nat.sub_add_cancel hb]

theorem Store.mapSector_sector (st : Store) (n m : Nat) (f : RecSector → RecSector) :
    (st.mapSector n f).sector m = if recIndex n = recIndex m then f (st.sector m) else st.sector m := by
  show (st.sectors.modify (recIndex n) f).get (recIndex m) = _
  by_cases h : recIndex n = recIndex m
  · rw [if_pos h, h, Table.get_modify_same]; rfl
  · rw [if_neg h, Table.get_modify_ne _ _ h]; rfl

theorem Store.mapSector_same (st : Store) (n : Nat) (f : RecSector → RecSector) :
    (st.mapSector n f).sector n = f (st.sector n) := by
  rw [Store.mapSector_sector, if_pos rfl]

/-- Two sectors of one index are one. -/
theorem Store.sector_congr {st : Store} {n m : Nat} (h : recIndex n = recIndex m) : st.sector n = st.sector m := by
  rw [Store.sector, h]; rfl

/-- A listed erase changes the state of its own sector alone. -/
theorem Store.listErase_sector (st : Store) {n m : Nat} (h : recIndex n ≠ recIndex m) :
    (st.listErase n).sector m = st.sector m := by
  unfold Store.listErase
  extract_lets st1
  have h1 : st1.sector m = st.sector m := by
    simp only [st1]
    split <;> rfl
  split
  · exact h1
  · split
    · exact h1
    · refine (Store.mapSector_sector st1 n m _).trans ?_
      rw [if_neg h, h1]

/-- The erase conditions list RELEASABLE sectors alone (R162). -/
theorem joinAlong_sector (l : List Nat) (o : Bool) (r : Nat) {st : Store} {m : Nat} (h : (st.sector m).state ≠ .releasable) :
    (joinAlong l o r st).sector m = st.sector m := by
  induction l generalizing o r st with
  | nil => rfl
  | cons n l ih =>
    rw [joinAlong]
    split
    · next hn =>
      obtain ⟨hrel, -, -⟩ := hn
      have hne : recIndex n ≠ recIndex m := fun he => h (Store.sector_congr he ▸ hrel)
      have hsame := st.listErase_sector hne
      rw [ih true _ (hsame ▸ h), hsame]
    · split
      · exact ih _ _ h
      · exact ih _ _ h

theorem Store.testErases_sector {st : Store} {m : Nat} (h : (st.sector m).state ≠ .releasable) :
    st.testErases.sector m = st.sector m := joinAlong_sector _ _ _ h

/-- What the store holds is not posted. -/
theorem State.post_mapStore_ports (s : State) (f : Store → Store) (rs : List Party) (k : NoticeKind) (i : Nat) (v : BitVec 32)
    (m b : Nat) : ((s.mapStore f).post rs k i v m b).ports = (s.post rs k i v m b).ports :=
  State.post_ports_congr (s := s.mapStore f) (t := s) rfl rfl rfl ..

/-! ### The end of an erase (R163, R164) -/

theorem readCell_writeBytes_erased {m : List Host.Cell} (hw : Cells.wf m = true) {bs : List Byte}
    (hbs : bs.all (fun b => b == erasedByte) = true) {a x : Nat} (hx : readCell m x = erasedByte) :
    readCell (writeBytes m a bs) x = erasedByte := by
  induction bs generalizing m a with
  | nil => exact hx
  | cons b bs ih =>
    obtain ⟨hb, hbs⟩ := Bool.and_eq_true_iff.mp hbs
    refine ih (writeCell_wf hw a b) hbs ?_
    rw [readCell_writeCell hw]
    split
    · exact beq_iff_eq.mp hb
    · exact hx

/-- A sector whose erase verifies reads FFh throughout. -/
theorem readCell_leaveSector {m : List Host.Cell} (hw : Cells.wf m = true) {n x : Nat} {left : List Byte}
    (hleft : (left.take 4096).all (fun b => b == erasedByte) = true) (hlo : n * 4096 ≤ x) (hhi : x < (n + 1) * 4096) :
    readCell (leaveSector m n left) x = erasedByte :=
  readCell_writeBytes_erased (eraseSector_wf hw n) hleft (readCell_eraseSector m n x ⟨hlo, hhi⟩)

theorem Store.startAt_spec (st : Store) (n : Nat) :
    (st.startAt n).nextUnit = 0 ∧ (st.startAt n).current = st.current ∧ (st.startAt n).cells = st.cells ∧
    ∀ m, recIndex n ≠ recIndex m → (st.startAt n).sector m = st.sector m := by
  unfold Store.startAt
  dsimp only
  split
  · refine ⟨rfl, rfl, rfl, fun m hm => ?_⟩
    exact (Store.mapSector_sector _ n m _).trans (if_neg hm)
  · exact ⟨rfl, rfl, rfl, fun _ _ => rfl⟩

/-- Where the write position moves off a sector that its erase has retired, that sector stays as it is. -/
theorem Store.moveOffRetired_spec (st : Store) (n : Nat) :
    (st.writeSector ≠ n → (st.moveOffRetired n).nextUnit = st.nextUnit) ∧
    (st.nextUnit = 0 → (st.moveOffRetired n).nextUnit = 0) ∧
    (st.moveOffRetired n).current = st.current ∧ (st.moveOffRetired n).cells = st.cells ∧
    (st.moveOffRetired n).sector n = st.sector n := by
  unfold Store.moveOffRetired
  split
  · next h =>
    obtain ⟨hw, hret⟩ := h
    split
    · next m hm =>
      have hstate : (st.sector m).state ≠ .retired := by simpa using List.find?_some hm
      obtain ⟨hunit, hcurrent, hcells, hothers⟩ := st.startAt_spec m
      refine ⟨fun hne => absurd hw hne, fun _ => hunit, hcurrent, hcells, hothers n fun he => ?_⟩
      exact hstate (Store.sector_congr he ▸ hret)
    · exact ⟨fun _ => rfl, id, rfl, rfl, rfl⟩
  · exact ⟨fun _ => rfl, id, rfl, rfl, rfl⟩

theorem RecSector.afterErase_state (r : RecSector) (ok holdsWrite : Bool) :
    (r.afterErase ok holdsWrite).state ≠ .releasable := by
  unfold RecSector.afterErase
  split
  · nofun
  · split
    · nofun
    · split <;> nofun

/-- The store once a record sector's erase has ended and the erase conditions are tested. -/
noncomputable def Store.erased (st : Store) (n : Nat) (ok : Bool) : Store :=
  (((st.afterErase n ok).moveOffRetired n).clearLeft n).testErases

theorem Store.erased_spec (st : Store) (n : Nat) (ok : Bool) :
    (st.erased n ok).current = st.current ∧ (st.erased n ok).cells = st.cells ∧
    (st.writeSector ≠ n → (st.erased n ok).nextUnit = st.nextUnit) ∧
    (st.writeSector = n → (st.erased n ok).nextUnit = 0) ∧
    (st.erased n ok).sector n = (st.sector n).afterErase ok (st.writeSector == n) := by
  obtain ⟨hstays, hzero, hcurrent, hcells, hsector⟩ := (st.afterErase n ok).moveOffRetired_spec n
  have hafter : (st.afterErase n ok).sector n = (st.sector n).afterErase ok (st.writeSector == n) := st.mapSector_same n _
  have hclear : (((st.afterErase n ok).moveOffRetired n).clearLeft n).sector n =
      (st.sector n).afterErase ok (st.writeSector == n) := hsector.trans hafter
  have hkept := Store.testErases_sector (st := ((st.afterErase n ok).moveOffRetired n).clearLeft n) (m := n)
    (by rw [hclear]; exact RecSector.afterErase_state _ _ _)
  obtain ⟨e, c, x, i, hframe⟩ := (((st.afterErase n ok).moveOffRetired n).clearLeft n).testErases_frame
  refine ⟨?_, ?_, fun hne => ?_, fun he => ?_, hkept.trans hclear⟩
  · rw [Store.erased, hframe]; exact hcurrent
  · rw [Store.erased, hframe]; exact hcells
  · rw [Store.erased, hframe]
    exact (hstays hne).trans (if_neg hne)
  · rw [Store.erased, hframe]
    exact hzero (if_pos he)

theorem State.recordErased_eq (s : State) (n : Nat) (ok : Bool) : s.recordErased n ok =
    ((if ok then s.mapStore fun st => st.afterErase n ok else (s.mapStore fun st => st.afterErase n ok).postDefect n 2).mapStore
      fun st => ((st.moveOffRetired n).clearLeft n).testErases) := rfl

theorem State.recordErased_frame (s : State) (n : Nat) (ok : Bool) : ∃ p, s.recordErased n ok =
      { s with ports := p, store := s.store.erased n ok } ∧
    p = if ok then s.ports else (s.post allParties .storeDefect n 2#32).ports := by
  rw [State.recordErased_eq]
  cases ok with
  | true => exact ⟨_, rfl, rfl⟩
  | false =>
    obtain ⟨p, h⟩ := State.post_frame (s.mapStore fun st => st.afterErase n false) allParties .storeDefect n 2#32 0 0
    have hports := congrArg State.ports h
    refine ⟨p, ?_, hports.symm.trans (State.post_mapStore_ports ..)⟩
    simp only [Bool.false_eq_true, if_false, State.postDefect]
    exact congrArg (fun t : State => t.mapStore fun st => ((st.moveOffRetired n).clearLeft n).testErases) h

/-- What the array, the erase list and the timer hold once an erase has ended, before the sector's own state changes. -/
noncomputable def Store.eraseEnded (st : Store) (n : Nat) (left : List Byte) : Store :=
  { st with
    current := none, eraseMs := 0, eraseList := st.eraseList.filter fun m => m != n
    cells := if 2 ≤ n ∧ n < 10 then st.cells else leaveSector st.cells n left }

theorem exec_sectorEraseDone {s : State} {n : Nat} (h : s.store.current = some (.erase n)) (left : List Byte) :
    exec (.sectorEraseDone left) s = .next (s.eraseDone n left) := by
  show execSectorEraseDone left s = _
  rw [execSectorEraseDone, h]

theorem State.eraseDone_record {s : State} {n : Nat} (h : 10 ≤ n) (left : List Byte) : s.eraseDone n left =
    (s.mapStore fun st => st.eraseEnded n left).recordErased n ((left.take 4096).all fun b => b == erasedByte) :=
  (if_neg (by omega)).trans (if_neg (by omega))

theorem State.eraseDone_ckpt {s : State} {n : Nat} (h : 2 ≤ n) (h' : n < 10) (left : List Byte) : s.eraseDone n left =
    (s.mapStore fun st => st.eraseEnded n left).ckptErased n ((left.take 4096).all fun b => b == erasedByte) :=
  (if_neg (by omega)).trans (if_pos h')

/-- Settles O45: record sectors by whether the erase verifies, checkpoint sectors likewise. -/
theorem erasesEnd : Obligations.ErasesEnd := by
  refine ⟨fun n left s h hlo hhi => ?_, fun n left s h hlo hhi => ?_⟩
  · obtain ⟨p, hframe, hports⟩ := (s.mapStore fun st => st.eraseEnded n left).recordErased_frame n
      ((left.take 4096).all fun b => b == erasedByte)
    obtain ⟨hcurrent, hcells, hstays, hzero, hsector⟩ := (s.store.eraseEnded n left).erased_spec n
      ((left.take 4096).all fun b => b == erasedByte)
    refine ⟨_, (exec_sectorEraseDone h left).trans (congrArg _ ((State.eraseDone_record hlo left).trans hframe)),
      hcurrent, rfl, rfl, hstays, fun hok => ?_, fun hbad => ?_⟩
    · have hleft : (left.take 4096).all (fun b => b == erasedByte) = true := hok
      rw [hleft] at hports hsector hcells hzero ⊢
      have hcells' : ((s.store.eraseEnded n left).erased n true).cells = leaveSector s.store.cells n left :=
        hcells.trans (if_neg (by omega))
      refine ⟨fun hw x hx hx' => ?_, hports, hzero, hsector.trans ?_⟩
      · refine Eq.trans ?_ (readCell_leaveSector hw hleft hx hx')
        exact congrArg (readCell · x) hcells'
      · show (s.store.sector n).afterErase true (s.store.writeSector == n) = _
        rw [RecSector.afterErase]
        simp only [beq_iff_eq]
        rfl
    · have hleft : (left.take 4096).all (fun b => b == erasedByte) = false := hbad
      rw [hleft] at hports hsector ⊢
      refine ⟨hports.trans ?_, ?_, ?_⟩
      · exact State.post_mapStore_ports ..
      · exact congrArg RecSector.state hsector
      · exact congrArg RecSector.retiring hsector
  · intro st
    rw [exec_sectorEraseDone h, State.eraseDone_ckpt hlo hhi]
    have hended : (s.mapStore fun st => st.eraseEnded n left) = { s with store := { s.store with
        current := none, eraseMs := 0, eraseList := s.store.eraseList.filter fun m => m != n } } := by
      show ({ s with store := s.store.eraseEnded n left } : State) = _
      rw [Store.eraseEnded, if_pos ⟨hlo, hhi⟩]
    rw [hended, State.ckptErased]
    have hbyte : ((left.take 4096).all fun b => b == 0xFF#8) = (left.take 4096).all fun b => b == erasedByte := rfl
    rw [hbyte]
    generalize (left.take 4096).all (fun b => b == erasedByte) = ok
    cases ok <;> rfl

end Sys2Proof.Machine
end

section

-- One thread per proof would pass the memory limit of the build: each has a stack of its own.
set_option Elab.async false

/-! # Proofs: what the free array begins -/

namespace Sys2Proof.Machine

/-! ### The operation served (R154) -/

theorem takeFirst_eq_some {test : ArrayOp → Bool} {before rest : List ArrayOp} {op : ArrayOp}
    (hb : ∀ x ∈ before, test x = false) (hop : test op = true) :
    takeFirst test (before ++ op :: rest) = some (op, before ++ rest) := by
  induction before with
  | nil => exact if_pos hop
  | cons a before ih =>
    obtain ⟨ha, hb⟩ := List.forall_mem_cons.mp hb
    rw [List.cons_append, takeFirst, ha, ih hb]; rfl

theorem takeFirst_eq_none {test : ArrayOp → Bool} {q : List ArrayOp} (h : ∀ x ∈ q, test x = false) : takeFirst test q = none := by
  induction q with
  | nil => rfl
  | cons a q ih =>
    obtain ⟨ha, hq⟩ := List.forall_mem_cons.mp h
    rw [takeFirst, ha, ih hq]; rfl

/-- The array serves an operation of the queue: those before it cannot be begun now. -/
theorem State.arrayServe_serves {s : State} (hmain : s.board.mainOn = true) (hst : s.station.state ≠ .starting)
    (hfree : s.store.current = none) {before rest : List ArrayOp} {op : ArrayOp} (hq : s.store.queue = before ++ op :: rest)
    (hb : ∀ x ∈ before, (s.begins x && s.store.canServe x) = false) (hop : (s.begins op && s.store.canServe op) = true) :
    s.arrayServe = State.serve { s with store := { s.store with queue := before ++ rest } } op := by
  have hrun : ¬(!s.board.mainOn || s.station.state == .starting || s.store.current.isSome) = true := by
    simp [hmain, hst, hfree]
  rw [State.arrayServe, if_neg hrun, hq, takeFirst_eq_some hb hop]; rfl

/-- No operation of the queue can be begun: an erase is resumed or begun. -/
theorem State.arrayServe_erases {s : State} (hmain : s.board.mainOn = true) (hst : s.station.state ≠ .starting)
    (hfree : s.store.current = none) (hq : ∀ x ∈ s.store.queue, (s.begins x && s.store.canServe x) = false) :
    s.arrayServe = s.beginErase := by
  have hrun : ¬(!s.board.mainOn || s.station.state == .starting || s.store.current.isSome) = true := by
    simp [hmain, hst, hfree]
  rw [State.arrayServe, if_neg hrun, takeFirst_eq_none hq]

theorem State.begins_of_settled {s : State} (hs : s.settled = true) (hp : s.store.pfw = false) (op : ArrayOp) :
    s.begins op = true := by
  cases op <;> simp [State.begins, hs, hp]

theorem State.begins_of_pfw {s : State} (hp : s.store.pfw = true) {op : ArrayOp} (h : ∀ c, op ≠ .checkpoint c) :
    s.begins op = false := by
  cases op with
  | checkpoint c => exact absurd rfl (h c)
  | record r => simp [State.begins, hp]
  | mark p sector unit bySeller contract period gone => simp [State.begins, hp]
  | read p e part gone => simp [State.begins, hp]
  | config sector generation image => simp [State.begins, hp]

/-! ### The erase begun or resumed (R154) -/

section Erase
variable {s : State} (hp : s.store.pfw = false)
include hp

theorem State.beginErase_resumes {n : Nat} (h : s.store.suspended = some n) :
    s.beginErase = { s with store := { s.store with current := some (.erase n), suspended := none } } := by
  rw [State.beginErase, hp, h]; rfl

theorem State.beginErase_starts {n : Nat} (h : s.store.suspended = none)
    (hn : s.store.eraseList.find? (fun n => s.settled || decide (n < 2)) = some n) :
    s.beginErase = { s with store := { s.store with current := some (.erase n), eraseMs := 0 } } := by
  rw [State.beginErase, hp, h, hn]; rfl

theorem State.beginErase_nothing (h : s.store.suspended = none)
    (hn : s.store.eraseList.find? (fun n => s.settled || decide (n < 2)) = none) : s.beginErase = s := by
  rw [State.beginErase, hp, h, hn]; rfl

end Erase

theorem State.beginErase_pfw {s : State} (hp : s.store.pfw = true) : s.beginErase = s := if_pos hp

/-! ### Where a record is placed (R158) -/

/-- R158: the record fits behind the one before. -/
def Store.fits (st : Store) (m : Nat) : Prop :=
  (st.sector st.writeSector).state = .filling ∧ (st.sector st.writeSector).retiring = false ∧ st.nextUnit + m ≤ 128

theorem Store.fits_iff (st : Store) (m : Nat) :
    (st.writable && decide (st.nextUnit + m ≤ 128)) = true ↔ st.fits m := by
  simp [Store.writable, Store.fits, and_assoc]

theorem Store.place_of_fits {st : Store} {m : Nat} (h : st.fits m) : st.place m = some (st.writeSector, st.nextUnit) :=
  if_pos ((st.fits_iff m).mpr h)

theorem Store.place_of_erasing {st : Store} (m : Nat) (h : (st.sector st.writeSector).state = .erasing) : st.place m = none := by
  have hnot : ¬st.fits m := fun hf => by rw [hf.1] at h; cases h
  have herasing : st.writeErasing = true := by rw [Store.writeErasing, h]; rfl
  rw [Store.place, if_neg (mt (st.fits_iff m).mp hnot), if_pos herasing]

theorem Store.place_moves {st : Store} {m : Nat} (hf : ¬st.fits m) (he : (st.sector st.writeSector).state ≠ .erasing)
    (n unit : Nat) : st.place m = some (n, unit) ↔ unit = 0 ∧ st.nextWrite = some n ∧ (st.sector n).state = .erased := by
  have herasing : ¬st.writeErasing = true := by simpa [Store.writeErasing] using he
  rw [Store.place, if_neg (mt (st.fits_iff m).mp hf), if_neg herasing]
  cases st.nextWrite with
  | none => simp
  | some t =>
    dsimp only
    constructor
    · intro h
      obtain ⟨ht, h⟩ := Option.ite_none_right_eq_some.mp h
      obtain ⟨rfl, rfl⟩ := (Prod.mk.injEq ..).mp (Option.some.inj h)
      exact ⟨rfl, rfl, ht⟩
    · rintro ⟨rfl, ht, hn⟩
      obtain rfl := Option.some.inj ht
      exact if_pos hn

/-- R158: the next write sector is the first in ring order that is neither RETIRED nor retiring. -/
theorem Store.nextWrite_eq_some_iff (st : Store) (n : Nat) : st.nextWrite = some n ↔
    ((st.sector n).state ≠ .retired ∧ (st.sector n).retiring = false) ∧
    ∃ before after, ringAfter st.writeSector = before ++ n :: after ∧
      ∀ x ∈ before, (st.sector x).state = .retired ∨ (st.sector x).retiring = true := by
  have htest : ∀ x, ((st.sector x).state != .retired && !(st.sector x).retiring) = true ↔
      (st.sector x).state ≠ .retired ∧ (st.sector x).retiring = false := fun x => by simp
  have hfail : ∀ x, (!((st.sector x).state != .retired && !(st.sector x).retiring)) = true ↔
      (st.sector x).state = .retired ∨ (st.sector x).retiring = true := fun x => by
    cases (st.sector x).retiring <;> simp
  rw [Store.nextWrite, Store.ahead, List.find?_filter, List.find?_eq_some_iff_append]
  simp only [Bool.decide_and, Bool.decide_eq_true, htest, hfail]

theorem Store.nextWrite_erased {st : Store} {n : Nat} : st.nextWrite = some n ∧ (st.sector n).state = .erased ↔
    ∃ before after, ringAfter st.writeSector = before ++ n :: after ∧
      (∀ x ∈ before, (st.sector x).state = .retired ∨ (st.sector x).retiring = true) ∧
      (st.sector n).state = .erased ∧ (st.sector n).retiring = false := by
  rw [Store.nextWrite_eq_some_iff]
  constructor
  · rintro ⟨⟨⟨-, hr⟩, before, after, hring, hb⟩, he⟩
    exact ⟨before, after, hring, hb, he, hr⟩
  · rintro ⟨before, after, hring, hb, he, hr⟩
    exact ⟨⟨⟨by rw [he]; nofun, hr⟩, before, after, hring, hb⟩, he⟩

/-- A place in another sector than the write sector is at its unit 0, and the sector is ERASED. -/
theorem Store.erased_of_place {st : Store} {m n unit : Nat} (h : st.place m = some (n, unit)) (hn : n ≠ st.writeSector) :
    unit = 0 ∧ (st.sector n).state = .erased := by
  by_cases hf : st.fits m
  · rw [Store.place_of_fits hf] at h
    obtain ⟨rfl, -⟩ := (Prod.mk.injEq ..).mp (Option.some.inj h)
    exact absurd rfl hn
  · by_cases he : (st.sector st.writeSector).state = .erasing
    · rw [Store.place_of_erasing m he] at h; cases h
    · obtain ⟨hu, -, hs⟩ := (Store.place_moves hf he n unit).mp h
      exact ⟨hu, hs⟩

/-! ### Moving the write position (R158) -/

/-- A sector that is not RELEASABLE keeps its state as the erase conditions are tested. -/
theorem Store.testErases_state {st : Store} {m : Nat} {x : RecState} (h : (st.sector m).state = x) (hx : x ≠ .releasable) :
    (st.testErases.sector m).state = x :=
  (congrArg RecSector.state (Store.testErases_sector (h ▸ hx))).trans h

theorem Store.enter_same (st : Store) (unit : Nat) : st.enter st.writeSector unit = st := if_pos rfl

/-- The write position moves to an ERASED sector: that is FILLING from unit 0, and the old one is left. -/
theorem Store.enter_spec {st : Store} {n unit : Nat} (hn : n ≠ st.writeSector) (he : (st.sector n).state = .erased) :
    (st.enter n unit).writeSector = n ∧ (st.enter n unit).nextUnit = unit ∧ ((st.enter n unit).sector n).state = .filling ∧
    (st.enter n unit).cells = st.cells ∧ (st.enter n unit).queue = st.queue ∧
    ((st.sector st.writeSector).state = .filling → st.allReleased st.writeSector = false →
      ((st.enter n unit).sector st.writeSector).state = .full) := by
  rw [Store.enter, if_neg hn]
  extract_lets st1
  have hfilling : ((st1.setState n .filling).sector n).state = .filling := congrArg RecSector.state (st1.mapSector_same n _)
  have hkept := Store.testErases_state (st := { st1.setState n .filling with writeSector := n, nextUnit := unit }) hfilling nofun
  obtain ⟨e, c, x, i, hframe⟩ := Store.testErases_frame { st1.setState n .filling with writeSector := n, nextUnit := unit }
  have hst1 : st1.cells = st.cells ∧ st1.queue = st.queue := by
    simp only [st1]
    split <;> exact ⟨rfl, rfl⟩
  refine ⟨by rw [hframe], by rw [hframe], hkept, by rw [hframe]; exact hst1.1,
    by rw [hframe]; exact hst1.2, fun hold hrel => ?_⟩
  have hne : recIndex n ≠ recIndex st.writeSector := fun hi => by
    rw [Store.sector_congr hi, hold] at he; cases he
  have hleft : st1 = st.setState st.writeSector (st.leftState st.writeSector) := if_pos hold
  have hfull : ((st1.setState n .filling).sector st.writeSector).state = .full := by
    rw [Store.setState, Store.mapSector_sector, if_neg hne, hleft]
    refine (congrArg RecSector.state (st.mapSector_same st.writeSector _)).trans ?_
    show st.leftState st.writeSector = .full
    rw [Store.leftState, hrel]; rfl
  exact Store.testErases_state (st := { st1.setState n .filling with writeSector := n, nextUnit := unit }) hfull nofun

/-! ### What the array begins -/

theorem State.station_ne_starting {s : State} (hs : s.settled = true) : s.station.state ≠ .starting := fun hst => by
  simp [State.settled, hst] at hs

/-- In OPERATING and RECONFIGURING, with the array free and no warning, the oldest operation that can be served is. -/
theorem State.arrayServe_oldest {s : State} (hrun : s.blocksRun = true) (hfree : s.store.current = none)
    (hp : s.store.pfw = false) {before rest : List ArrayOp} {op : ArrayOp} (hq : s.store.queue = before ++ op :: rest)
    (hb : ∀ x ∈ before, s.store.canServe x = false) (hop : s.store.canServe op = true) :
    s.arrayServe = State.serve { s with store := { s.store with queue := before ++ rest } } op := by
  obtain ⟨hmain, hs⟩ := Bool.and_eq_true_iff.mp hrun
  refine State.arrayServe_serves hmain (State.station_ne_starting hs) hfree hq (fun x hx => ?_) ?_
  · rw [hb x hx, Bool.and_false]
  · rw [State.begins_of_settled hs hp, hop]; rfl

theorem State.settled_of_blank {s : State} (h : s.station.state = .blank) : s.settled = false := by
  simp [State.settled, h]

theorem State.begins_of_blank_pfw {s : State} (h : s.station.state = .blank) (hp : s.store.pfw = true) (op : ArrayOp) :
    s.begins op = false := by
  cases op <;> simp [State.begins, State.settled_of_blank h, hp]

/-- R153: in BLANK the array programs configuration sectors that are erased, and serves nothing else. -/
theorem State.programs_iff {s : State} (h : s.station.state = .blank) (hp : s.store.pfw = false) (x : ArrayOp) :
    (s.begins x && s.store.canServe x) = true ↔
      ∃ sector generation image, x = .config sector generation image ∧ sectorBlank s.store.cells sector = true := by
  have hs := State.settled_of_blank h
  cases x <;> simp [State.begins, Store.canServe, hs, h, hp]

/-- Settles O43: by the operation served, by the erase otherwise, and by the rules that say which can be served. -/
theorem arrayServesTheQueueThenErases : Obligations.ArrayServesTheQueueThenErases := by
  refine ⟨fun s hrun hfree => ?_, fun st x => ?_, fun st m => ?_, fun st op => ?_, fun s => ?_⟩
  · intro now
    obtain ⟨hmain, hs⟩ := Bool.and_eq_true_iff.mp hrun
    have hstart := State.station_ne_starting hs
    refine ⟨fun hp => ⟨fun before op rest hq hb => ?_, fun hnone => ?_⟩, fun hp => ⟨fun c n hq ht => ?_, fun hnone => ?_⟩⟩
    · intro q
      have hserve := fun hop => State.arrayServe_oldest hrun hfree hp (op := op) hq hb hop
      refine ⟨fun r unit hr hplace => ?_, fun r n hr hplace hn _ _ => ?_, fun p sector unit bySeller contract period gone hm => ?_,
        fun p e part gone hr => ?_, fun c n hc ht => ?_, fun c hc ht => ?_, fun sector generation image hc hblank => ?_⟩
      · subst hr
        have hplace' : Store.place { s.store with queue := q } r.units = some (s.store.writeSector, unit) := hplace
        refine congrArg _ ((hserve (by rw [Store.canServe, hplace]; rfl)).trans ?_)
        rw [State.serve, hplace']
        show State.mapStore _ _ = _
        rw [State.mapStore, Store.enter_same (st := { s.store with queue := q })]
      · subst hr
        obtain ⟨-, he⟩ := Store.erased_of_place hplace hn
        have hplace' : Store.place { s.store with queue := q } r.units = some (n, 0) := hplace
        obtain ⟨hwrite, hunit, hfill, hcells, hqueue, hold⟩ :=
          Store.enter_spec (st := { s.store with queue := q }) (n := n) (unit := 0) hn he
        refine ⟨{ Store.enter { s.store with queue := q } n 0 with current := some (.record r n 0) },
          congrArg _ ((hserve (by rw [Store.canServe, hplace]; rfl)).trans ?_), rfl, hqueue, hwrite, hunit, hfill, hcells, hold⟩
        rw [State.serve, hplace']; rfl
      · subst hm
        exact congrArg _ (hserve rfl)
      · subst hr
        refine congrArg _ ((hserve rfl).trans ?_)
        have hsame : (s.store.suspended == some e.sector) = decide (s.store.suspended = some e.sector) := by
          rw [Bool.eq_iff_iff, beq_iff_eq, decide_eq_true_eq]
        rw [← hsame]; rfl
      · subst hc
        have ht' : Store.ckptTarget { s.store with queue := q } = .write n := ht
        refine congrArg _ ((hserve (by rw [Store.canServe, ht]; rfl)).trans ?_)
        rw [State.serve, ht']; rfl
      · subst hc
        have ht' : Store.ckptTarget { s.store with queue := q } = .none := ht
        refine congrArg _ ((hserve (by rw [Store.canServe, ht]; rfl)).trans ?_)
        rw [State.serve, ht']; rfl
      · subst hc
        exact congrArg _ (hserve hblank)
    · have herases : s.arrayServe = s.beginErase :=
        State.arrayServe_erases hmain hstart hfree fun x hx => by rw [hnone x hx, Bool.and_false]
      refine ⟨fun n hn => congrArg _ (herases.trans (State.beginErase_resumes hp hn)),
        fun n rest hn hl => congrArg _ (herases.trans (State.beginErase_starts hp hn ?_)),
        fun hn hl => congrArg _ (herases.trans (State.beginErase_nothing hp hn ?_))⟩
      · rw [hl, hs]; rfl
      · rw [hl]; rfl
    · have hserve := State.arrayServe_serves hmain hstart hfree (before := []) (rest := []) (op := .checkpoint c) hq
        (fun _ hx => absurd hx List.not_mem_nil)
        (by rw [State.begins, hs, Store.canServe, ht]; rfl)
      refine congrArg _ (hserve.trans ?_)
      have ht' : Store.ckptTarget { s.store with queue := [] } = .write n := ht
      rw [State.serve]
      show (match Store.ckptTarget { s.store with queue := [] } with | .write n => _ | .wait => _ | .none => _) = _
      rw [ht']; rfl
    · have herases : s.arrayServe = s.beginErase := State.arrayServe_erases hmain hstart hfree fun x hx => by
        rw [State.begins_of_pfw hp fun c hc => hnone c (hc ▸ hx), Bool.false_and]
      exact congrArg _ (herases.trans (State.beginErase_pfw hp))
  · cases x with
    | checkpoint c =>
      show (st.ckptTarget != .wait) = decide (st.ckptTarget ≠ .wait)
      rw [Bool.eq_iff_iff, bne_iff_ne, decide_eq_true_eq]
    | record r => rfl
    | mark p sector unit bySeller contract period gone => rfl
    | read p e part gone => rfl
    | config sector generation image => rfl
  · intro w fits
    refine ⟨Store.place_of_fits, Store.place_of_erasing m, fun hf he n unit => ?_⟩
    rw [Store.place_moves hf he, Store.nextWrite_erased]; rfl
  · intro joined
    refine ⟨fun n hn hserve => ?_, fun h => ?_⟩
    · rw [Store.enqueue, hn]
      exact if_pos hserve
    · rw [Store.enqueue]
      dsimp only
      split
      · next n hn =>
        have hno : st.canServe op = false := h.resolve_left fun hne => hne n hn
        exact if_neg (by rw [show Store.canServe { st with queue := st.queue ++ [op] } op = st.canServe op from rfl, hno]; nofun)
      · rfl
  · refine ⟨fun h => ?_, fun hmain hblank hfree => ?_⟩
    · have hrest : (!s.board.mainOn || s.station.state == .starting || s.store.current.isSome) = true := by
        rcases h with h | h <;> simp [h]
      exact congrArg _ (if_pos hrest)
    · intro now programs
      have hs : s.settled = false := State.settled_of_blank hblank
      have hstart : s.station.state ≠ .starting := by rw [hblank]; nofun
      refine ⟨fun hp => ?_, fun hp => ⟨fun before sector generation image rest hq hsec hb => ?_, fun hnone => ?_⟩⟩
      · have herases : s.arrayServe = s.beginErase := State.arrayServe_erases hmain hstart hfree fun x _ => by
          rw [State.begins_of_blank_pfw hblank hp, Bool.false_and]
        exact congrArg _ (herases.trans (State.beginErase_pfw hp))
      · refine congrArg _ (State.arrayServe_serves hmain hstart hfree hq (fun x hx => ?_) ?_)
        · exact Bool.eq_false_iff.mpr fun ht => hb x hx ((State.programs_iff hblank hp x).mp ht)
        · exact (State.programs_iff hblank hp _).mpr ⟨sector, generation, image, rfl, hsec⟩
      · have herases : s.arrayServe = s.beginErase := State.arrayServe_erases hmain hstart hfree fun x hx =>
          Bool.eq_false_iff.mpr fun ht => hnone x hx ((State.programs_iff hblank hp x).mp ht)
        refine ⟨fun n hn => congrArg _ (herases.trans (State.beginErase_resumes hp hn)),
          fun before n rest hn hl hlt hb => congrArg _ (herases.trans (State.beginErase_starts hp hn ?_)),
          fun hn hl => congrArg _ (herases.trans (State.beginErase_nothing hp hn ?_))⟩
        · rw [hl, List.find?_eq_some_iff_append]
          refine ⟨by rw [hs]; simpa using hlt, before, rest, rfl, fun x hx => ?_⟩
          have := hb x hx
          simp only [hs, Bool.false_or, Bool.not_eq_true', decide_eq_false_iff_not]
          omega
        · refine List.find?_eq_none.mpr fun x hx => ?_
          have := hl x hx
          simp only [hs, Bool.false_or, decide_eq_true_eq]
          omega

end Sys2Proof.Machine
end

section

-- One thread per proof would pass the memory limit of the build: each has a stack of its own.
set_option Elab.async false

/-! # Proofs: the end of a record program -/

namespace Sys2Proof.Machine

/-! ### Sectors that the erase conditions do not reach (R162) -/

theorem mem_ringAfter {n x : Nat} (h : 10 ≤ n) (h' : n ≤ 63) (hx : x ∈ ringAfter n) : 10 ≤ x ∧ x ≤ 63 ∧ x ≠ n := by
  obtain ⟨k, hk, rfl⟩ := List.mem_map.mp hx
  refine ⟨Nat.le_add_right .., Nat.le_of_lt_succ (Nat.add_lt_add_left (Nat.mod_lt _ (by decide)) 10), fun he => ?_⟩
  have hround : (n - 10 + (1 + k)) % 54 = n - 10 := by
    rw [← Nat.add_assoc]
    exact Nat.eq_sub_of_add_eq' he
  have hsame : n - 10 + (1 + k) ≡ n - 10 [MOD 54] :=
    hround.trans (Nat.mod_eq_of_lt (Nat.sub_lt_right_of_lt_add h (Nat.lt_succ_of_le h'))).symm
  have hle := Nat.le_of_dvd (Nat.add_pos_left Nat.one_pos k) (Nat.add_modEq_left_iff.mp hsame)
  exact absurd (hle.trans (Nat.add_comm 1 k).le) (Nat.not_le.mpr (Nat.succ_lt_succ (List.mem_range.mp hk)))

theorem joinAlong_sector_of_not_mem (l : List Nat) (o : Bool) (r : Nat) (st : Store) {m : Nat}
    (h : ∀ n ∈ l, recIndex n ≠ recIndex m) : (joinAlong l o r st).sector m = st.sector m := by
  induction l generalizing o r st with
  | nil => rfl
  | cons n l ih =>
    obtain ⟨hn, hl⟩ := List.forall_mem_cons.mp h
    rw [joinAlong]
    split
    · rw [ih _ _ _ hl, st.listErase_sector hn]
    · split
      · exact ih _ _ _ hl
      · exact ih _ _ _ hl

/-- The write sector is not ahead of itself. -/
theorem Store.testErases_writeSector (st : Store) (h : 10 ≤ st.writeSector) (h' : st.writeSector ≤ 63) :
    st.testErases.sector st.writeSector = st.sector st.writeSector := by
  refine joinAlong_sector_of_not_mem _ _ _ _ fun n hn => ?_
  obtain ⟨hlo, hhi, hne⟩ := mem_ringAfter h h' (List.mem_filter.mp hn).1
  exact fun he => hne ((recIndex_inj hlo hhi h h').mp he)

theorem Store.enter_writeSector (st : Store) (n unit : Nat) : (st.enter n unit).writeSector = n := by
  rw [Store.enter]
  split
  · next h => exact h.symm
  · extract_lets st1
    obtain ⟨e, c, x, i, hframe⟩ := Store.testErases_frame { st1.setState n .filling with writeSector := n, nextUnit := unit }
    rw [hframe]

/-! ### A record is programmed again (R160) -/

theorem Store.remake_of_place {st : Store} {r : PeriodRecord} {n unit : Nat} (h : st.place r.units = some (n, unit)) :
    st.remake r = { st.enter n unit with current := some (.record r n unit) } := by
  rw [Store.remake, h]

theorem Store.remake_of_none {st : Store} {r : PeriodRecord} (h : st.place r.units = none) :
    st.remake r = { st with queue := .record r :: st.queue } := by
  rw [Store.remake, h]

theorem Store.retire_sector (st : Store) {n : Nat} (hw : st.writeSector = n) (h : 10 ≤ n) (h' : n ≤ 63) :
    (st.retire n).sector n = ⟨st.leftState n, true, (st.sector n).fails⟩ := by
  subst hw
  have hkept := Store.testErases_writeSector
    (st.mapSector st.writeSector fun r => { r with state := st.leftState st.writeSector, retiring := true }) h h'
  exact hkept.trans (st.mapSector_same _ _)

/-- What a failed attempt leaves of the store (R160). -/
theorem Store.voidAttempt_spec (st : Store) (sector unit : Nat) (cells : List Host.Cell) :
    let u := st.voidAttempt sector unit cells
    u.cells = cells ∧ (u.sector sector).fails = min 3 ((st.sector sector).fails + 1) ∧
    (u.sector sector).state = (st.sector sector).state ∧ u.current = none ∧
    (∀ n, unitSpan cells sector unit = some n → u.index = st.index ++ [⟨sector, unit, n, none⟩] ∧ u.nextUnit = unit + n) ∧
    (unitSpan cells sector unit = none → u.index = st.index ∧ u.nextUnit = unit) := by
  intro u
  have hsector : u.sector sector = { st.sector sector with fails := min 3 ((st.sector sector).fails + 1) } :=
    st.mapSector_same sector _
  refine ⟨rfl, by rw [hsector], by rw [hsector], rfl, fun n hn => ⟨?_, ?_⟩, fun hn => ⟨?_, ?_⟩⟩
  · simp only [u, Store.voidAttempt, hn]
  · simp only [u, Store.voidAttempt, hn, Option.getD_some]
  · simp only [u, Store.voidAttempt, hn]
  · simp only [u, Store.voidAttempt, hn, Option.getD_none, Nat.add_zero]

/-- R158, R148: the record in the array, the index and the write position; its closing account is dropped. -/
theorem State.recordDone_eq (s : State) (r : PeriodRecord) (sector start : Nat) : s.recordDone r sector start =
    ({ s with
        store := { s.store with
          cells := programBytes s.store.cells (sector * 4096 + start * 32) r.bytes
          nextUnit := start + r.units
          index := s.store.index ++ [⟨sector, start, r.units,
            some ⟨r.contract.val, r.account.period, r.seller, r.buyer, r.sequence, false, false⟩⟩]
          current := none }
        billing := { s.billing with
          contracts := s.billing.contracts.set r.contract { s.contract r.contract with closing := none } } } : State).post
      [s.img.seller r.contract, s.img.buyer r.contract] .recordWritten r.contract.val
      (BitVec.ofNat 32 r.account.period) sector start := by
  simp only [State.recordDone, State.mapStore, State.mapContract, Table.modify, State.contractParties, PeriodRecord.indexed,
    unitBase, State.contract]

theorem exec_recordProgramDone {s : State} {r : PeriodRecord} {sector start : Nat}
    (h : s.store.current = some (.record r sector start)) : exec .recordProgramDone s = .next (s.recordDone r sector start) := by
  show execRecordProgramDone s = _
  rw [execRecordProgramDone, h]

theorem exec_recordUnitFail {s : State} {r : PeriodRecord} {sector start unit : Nat} {left : List Byte} (tag : Byte)
    (h : s.store.current = some (.record r sector start)) (hunit : unit < r.units)
    (hfail : programFails s.store.cells (unitBase sector start + 32 * unit) (r.bytes.drop (32 * unit)) left = true) :
    exec (.recordUnitFail unit left tag) s = .next (s.recordFails r sector start unit left tag) := by
  show execRecordUnitFail unit left tag s = _
  rw [execRecordUnitFail, h]
  exact congrArg _ (if_pos ⟨hunit, hfail⟩)

section Fails
variable {s : State} {r : PeriodRecord} {sector start unit : Nat} {left : List Byte} {tag : Byte} {cells : List Host.Cell}
  {st : Store} (hcells : cells = failedCells s.store.cells (unitBase sector start) r.bytes unit left tag)
  (hst : st = s.store.voidAttempt sector start cells)
include hcells hst

/-- R160: an attempt that fails for the first or second time, with its tag programmed to 00h. -/
theorem State.recordFails_stays (h : ¬(3 ≤ (st.sector sector).fails ∨ readCell cells (unitBase sector start) ≠ 0x00#8)) :
    s.recordFails r sector start unit left tag =
      if s.store.pfw then { s with store := st } else { s with store := st.remake r } := by
  have hno : (decide (3 ≤ (st.sector sector).fails) || readCell cells (unitBase sector start) != 0#8) = false := by
    obtain ⟨h1, h2⟩ := not_or.mp h
    rw [Bool.or_eq_false_iff]
    exact ⟨decide_eq_false h1, by simpa using h2⟩
  rw [State.recordFails, ← hcells]
  rw [← hst, hno]
  rfl

/-- R160: the third failure, or a tag that does not read 00h. -/
theorem State.recordFails_retires (h : 3 ≤ (st.sector sector).fails ∨ readCell cells (unitBase sector start) ≠ 0x00#8) :
    s.recordFails r sector start unit left tag =
      if s.store.pfw then ({ s with store := st.retire sector } : State).post allParties .storeDefect sector 1#32
      else (({ s with store := st.retire sector } : State).post allParties .storeDefect sector 1#32).mapStore
        fun st => st.remake r := by
  have hyes : (decide (3 ≤ (st.sector sector).fails) || readCell cells (unitBase sector start) != 0#8) = true := by
    rw [Bool.or_eq_true]
    exact h.imp decide_eq_true fun h2 => bne_iff_ne.mpr h2
  rw [State.recordFails, ← hcells]
  rw [← hst, hyes]
  rfl

end Fails

/-- Settles O44: the record that verifies, and the attempt that fails by whether its sector is retired. -/
theorem recordProgramsEnd : Obligations.RecordProgramsEnd := by
  intro r sector start s h settled
  refine ⟨(exec_recordProgramDone h).trans (congrArg _ (s.recordDone_eq r sector start)), fun unit left tag hunit hfail => ?_⟩
  intro cells st run retires retired posted
  obtain ⟨hcells, hfails, hstate, hcurrent, hspan, hnospan⟩ := s.store.voidAttempt_spec sector start cells
  have hrun : run = .next (s.recordFails r sector start unit left tag) := exec_recordUnitFail tag h hunit hfail
  refine ⟨hcells, hfails, hstate, hcurrent, hspan, hnospan, fun hw hlo hhi => st.retire_sector hw hlo hhi,
    fun hstays => ?_, fun hretires => ?_⟩
  · have hfailed := State.recordFails_stays (s := s) (r := r) (unit := unit) (left := left) (tag := tag) (cells := cells)
      (st := st) rfl rfl hstays
    rw [hrun, hfailed]
    refine ⟨fun hp => by rw [if_pos hp], fun again hp hw hplace => ?_, fun n first hp hplace => ?_, fun hp hplace => ?_⟩
    · rw [if_neg (by rw [hp]; nofun), Store.remake_of_place hplace, ← hw, Store.enter_same]
    · refine ⟨_, by rw [if_neg (by rw [hp]; nofun)], ?_⟩
      rw [Store.remake_of_place hplace]
      exact ⟨rfl, Store.enter_writeSector .., rfl⟩
    · rw [if_neg (by rw [hp]; nofun), Store.remake_of_none hplace]
  · have hfailed := State.recordFails_retires (s := s) (r := r) (unit := unit) (left := left) (tag := tag) (cells := cells)
      (st := st) rfl rfl hretires
    obtain ⟨p, hframe⟩ := State.post_frame { s with store := retired } allParties .storeDefect sector 1#32 0 0
    have hposted : posted = { s with store := retired, ports := p } := hframe
    have hafter : run = .next (if s.store.pfw then posted else posted.mapStore fun st => st.remake r) :=
      hrun.trans (congrArg _ hfailed)
    rw [hafter]
    refine ⟨fun hp => by rw [if_pos hp], fun n first hp hplace => ?_, fun hp hplace => ?_⟩
    · refine ⟨_, by rw [if_neg (by rw [hp]; nofun)], ?_⟩
      rw [hposted]
      show (retired.remake r).current = _ ∧ (retired.remake r).writeSector = n ∧ _
      rw [Store.remake_of_place hplace]
      exact ⟨rfl, Store.enter_writeSector .., rfl, rfl⟩
    · rw [if_neg (by rw [hp]; nofun), hposted]
      show Host.Outcome.next { s with ports := p, store := retired.remake r } = _
      rw [Store.remake_of_none hplace]

end Sys2Proof.Machine
end

section

-- One thread per proof would pass the memory limit of the build: each has a stack of its own.
set_option Elab.async false

/-! # Proofs: reset, pins, supplies and the power-fail warning -/

namespace Sys2Proof.Machine

/-! ### Reset -/

/-- An erased array with an empty queue holds no checkpoint. -/
theorem Store.erasedArray_holds_nothing (c : Checkpoint) : ¬Store.erasedArray.Holds c := by
  rintro (⟨i, warned, h⟩ | h | ⟨n, h⟩)
  · rw [show Store.erasedArray.ckpts.get i = ⟨.erased, .blank⟩ from Table.get_replicate ..] at h
    cases h
  · exact absurd h List.not_mem_nil
  · cases h

/-- Settles O54. -/
theorem resetLeavesThePartStarting : Obligations.ResetLeavesThePartStarting := by
  have hport : ∀ p, State.reset.port p = Port.atStart Port.allKinds := fun p => Table.get_replicate ..
  have hslot : ∀ i, State.reset.sensor.slots.get i = Slot.atStart := fun i => Table.get_replicate ..
  have hstream : ∀ i, State.reset.fiscal.streams.get i = Stream.atStart := fun i => Table.get_replicate ..
  have hconsumer : ∀ e, State.reset.consumer e = Consumer.absent := fun e => Table.get_replicate ..
  refine ⟨rfl, rfl, hport, fun d => Table.get_replicate .., fun f => Table.get_replicate .., fun i => ?_, rfl, hstream, rfl,
    rfl, rfl, ⟨Nat.zero_le _, fun i h => ?_⟩, fun p => ?_, fun e => ?_, ⟨fun e _ => ?_, fun e => ?_, fun c hc => ?_⟩,
    ⟨fun i => ?_, fun c hc => ?_⟩, ⟨⟨.nil, fun x hx => ?_⟩, fun c hc => ?_⟩, rfl, ⟨⟨fun _ => rfl, fun _ => rfl⟩, fun h => ?_⟩⟩
  · rw [hslot]; rfl
  · rw [hslot] at h; cases h
  · rw [hport]
    exact ⟨Nat.zero_le _, ⟨fun h => absurd h Bool.false_ne_true, fun h => absurd h (by decide)⟩,
      fun h => absurd h Bool.false_ne_true⟩
  · rw [hconsumer]
    exact ⟨⟨fun h => absurd h Bool.false_ne_true, fun h => absurd h (by decide)⟩, Nat.zero_le _, fun _ => ⟨rfl, rfl⟩⟩
  · rw [hconsumer]; rfl
  · rw [hconsumer]
    exact ⟨fun _ => rfl, fun h => absurd h (by decide)⟩
  · exact absurd hc (Store.erasedArray_holds_nothing c)
  · rw [hstream]; decide
  · exact absurd hc (Store.erasedArray_holds_nothing c)
  · exact absurd hx List.not_mem_nil
  · exact absurd hc (Store.erasedArray_holds_nothing c)
  · exact absurd h Bool.false_ne_true

/-! ### A configuration program cut short (R167) -/

theorem mem_writeBytes {m : List Host.Cell} {a : Nat} {bs : List Byte} {c : Host.Cell} (h : c ∈ writeBytes m a bs) :
    c ∈ m ∨ a ≤ c.1 ∧ c.1 < a + bs.length := by
  induction bs generalizing m a with
  | nil => exact .inl h
  | cons b bs ih =>
    rw [List.length_cons]
    rcases ih h with h | h
    · exact (mem_writeCell h).imp_right fun h => by omega
    · exact .inr (by omega)

/-- What is left in one sector leaves an erased one erased. -/
theorem sectorBlank_leaveSector {m : List Host.Cell} {sector n : Nat} (h : sectorBlank m sector = true) (hn : n ≠ sector)
    (left : List Byte) : sectorBlank (leaveSector m n left) sector = true := by
  refine List.all_eq_true.mpr fun c hc => ?_
  rcases mem_writeBytes hc with hc | ⟨hlo, hhi⟩
  · exact List.all_eq_true.mp h c (List.mem_filter.mp hc).1
  · rw [Bool.or_assoc, Bool.or_eq_true, Bool.or_eq_true, decide_eq_true_eq, decide_eq_true_eq]
    have hlen : (left.take 4096).length ≤ 4096 := List.length_take_le ..
    unfold sectorBase at *
    exact .inr (by omega)

/-- What is cut short changes bytes and checkpoint contents alone. -/
theorem Store.tearErase_changes (st : Store) (n : Nat) (torn : Torn) :
    ∃ cells ckpts, st.tearErase n torn = { st with cells := cells, ckpts := ckpts } := by
  unfold Store.tearErase
  split <;> exact ⟨_, _, rfl⟩

theorem Store.tearCurrent_changes (st : Store) (torn : Torn) :
    ∃ cells ckpts, st.tearCurrent torn = { st with current := none, cells := cells, ckpts := ckpts } := by
  unfold Store.tearCurrent
  split
  case h_2 => split <;> exact ⟨_, _, rfl⟩
  case h_5 n _ => exact Store.tearErase_changes { st with current := none } n torn
  all_goals exact ⟨_, _, rfl⟩

/-- The array once the suspended erase is cut short. -/
noncomputable def Store.tearSuspended (st : Store) (torn : Torn) : Store :=
  match st.suspended with
  | some n => st.tearErase n torn
  | none => st

theorem Store.tearSuspended_changes (st : Store) (torn : Torn) :
    ∃ cells ckpts, st.tearSuspended torn = { st with cells := cells, ckpts := ckpts } := by
  unfold Store.tearSuspended
  split
  · exact st.tearErase_changes _ torn
  · exact ⟨_, _, rfl⟩

theorem Store.tearSuspended_current (st : Store) (torn : Torn) : (st.tearSuspended torn).current = st.current := by
  obtain ⟨cells, ckpts, h⟩ := st.tearSuspended_changes torn
  rw [h]

/-- Another sector's erase cut short leaves an erased sector erased. -/
theorem Store.tearSuspended_blank {st : Store} {sector : Nat} (hw : Cells.wf st.cells = true)
    (hb : sectorBlank st.cells sector = true) (hs : st.suspended ≠ some sector) (torn : Torn) :
    Cells.wf (st.tearSuspended torn).cells = true ∧ sectorBlank (st.tearSuspended torn).cells sector = true := by
  unfold Store.tearSuspended Store.tearErase
  split
  next n hn =>
    split
    · exact ⟨hw, hb⟩
    · exact ⟨leaveSector_wf hw n _, sectorBlank_leaveSector hb (fun he => hs (hn.trans (congrArg some he))) _⟩
  next => exact ⟨hw, hb⟩

theorem Store.tearCurrent_config {st : Store} {sector generation : Nat} {image : Image}
    (hc : st.current = some (.config sector generation image)) (torn : Torn) :
    st.tearCurrent torn = { st with current := none, cells := tornConfig st.cells sector generation image torn } := by
  unfold Store.tearCurrent
  rw [hc]

/-- What cuts a configuration program short leaves its sector DAMAGED. -/
theorem Store.cutConfig {st : Store} {sector generation : Nat} {image : Image}
    (hc : st.current = some (.config sector generation image)) (hw : Cells.wf st.cells = true)
    (hb : sectorBlank st.cells sector = true) (hs : st.suspended ≠ some sector) (hg : generation ≤ 4294967294) (torn : Torn) :
    ((st.tearSuspended torn).tearCurrent torn).current = none ∧
    classifyConfig ((st.tearSuspended torn).tearCurrent torn).cells sector = .damaged := by
  obtain ⟨hw', hb'⟩ := Store.tearSuspended_blank hw hb hs torn
  rw [Store.tearCurrent_config ((st.tearSuspended_current torn).trans hc)]
  exact ⟨rfl, tornConfig_damaged hw' hb' hg⟩

theorem Store.tear_eq (st : Store) (torn : Torn) : st.tear torn =
    { (st.tearSuspended torn).tearCurrent torn with suspended := none, eraseMs := 0 } := by
  unfold Store.tear Store.tearSuspended
  cases st.suspended <;> rfl

/-! ### Pins and supplies (R177, R200) -/

/-- Without the main supply no milliseconds reach the blocks, so a second ends at once. -/
theorem State.completeSecond_of_off {s : State} (h : s.board.mainOn = false) :
    s.completeSecond = { s with clock := { s.clock with phase := 0 } } := by
  have hoff : ¬s.board.mainOn = true := by rw [h]; exact Bool.false_ne_true
  rw [State.completeSecond, State.passMs, if_neg hoff]
  split <;> rfl

/-- Settles O51. -/
theorem pinsAndSupplies : Obligations.PinsAndSupplies := by
  intro s held torn
  refine ⟨⟨rfl, fun c p r hc => ?_⟩, fun hheld => ?_, fun hon => congrArg _ (if_pos hon),
    fun sector generation image hc hsec hw hb hs hg => ?_, fun hoff hv hlast => ?_, fun hoff hv => ?_, fun hoff => ?_,
    fun hon => congrArg _ (if_pos hon)⟩
  · obtain ⟨rule, hrule⟩ := exec_requestSent hc
    rw [hrule, State.request, State.takeFrame, if_neg]
    rw [State.portsRespond, Bool.not_true, Bool.and_false]
    exact Bool.false_ne_true
  · refine congrArg _ (if_neg ?_)
    rw [decide_eq_false (show ¬resetMicroseconds ≤ held from not_le.mpr hheld), Bool.and_false]
    exact Bool.false_ne_true
  · rw [Store.tear_eq]
    exact Store.cutConfig hc hw hb hs hg torn
  · show execTickBoundary s = _
    rw [execTickBoundary, if_pos (by rw [hoff]; rfl), if_pos hv, State.completeSecond_of_off hoff]
    unfold State.raiseDomain State.raised
    dsimp only
    rw [if_pos (show s.clock.domain < lastTime from hlast), if_pos (show s.clock.domain < lastTime from hlast)]
  · show execTickBoundary s = _
    rw [execTickBoundary, if_pos (by rw [hoff]; rfl), if_neg (by rw [hv]; exact Bool.false_ne_true)]
  · exact congrArg _ (if_neg (by rw [hoff]; exact Bool.false_ne_true))

/-! ### The power-fail warning (R170) -/

/-- The array once what PFW abandons is cut short. -/
noncomputable def Store.abandon (st : Store) (torn : Torn) : Store :=
  match st.current with
  | some a => if a.goesOn then st.tearSuspended torn else (st.tearSuspended torn).tearCurrent torn
  | none => st.tearSuspended torn

theorem Store.warn_eq (st : Store) (torn : Torn) : st.warn torn =
    { st.abandon torn with
      pfw := true, abandoned := st.erasing, suspended := none, eraseMs := 0, queue := [], eraseList := [],
      gatherDue := none } := by
  unfold Store.warn Store.abandon Store.tearSuspended
  cases st.suspended <;> cases st.current <;> rfl

theorem Store.abandon_config {st : Store} {sector generation : Nat} {image : Image}
    (hc : st.current = some (.config sector generation image)) (torn : Torn) :
    st.abandon torn = (st.tearSuspended torn).tearCurrent torn := by
  rw [Store.abandon, hc]; rfl

theorem Store.abandon_ckptSequence (st : Store) (torn : Torn) : (st.abandon torn).ckptSequence = st.ckptSequence := by
  obtain ⟨cells, ckpts, h⟩ := st.tearSuspended_changes torn
  unfold Store.abandon
  rw [h]
  split
  · split
    · rfl
    · obtain ⟨cells', ckpts', h'⟩ := Store.tearCurrent_changes { st with cells := cells, ckpts := ckpts } torn
      rw [h']
  · rfl

theorem Store.abandon_servesCkpt {st : Store} (h : st.servesCkpt = true) (torn : Torn) :
    (st.abandon torn).current = st.current := by
  unfold Store.servesCkpt at h
  split at h
  next c n hc =>
    rw [Store.abandon, hc]
    exact (st.tearSuspended_current torn).trans hc
  next => cases h

/-- A checkpoint begun keeps the store's other marks, and with no erase going on joins the queue. -/
theorem State.beginCheckpoint_store (s : State) (emergency : Bool) (hq : s.store.queue = []) :
    let t := s.beginCheckpoint emergency
    t.store.pfw = s.store.pfw ∧ t.store.eraseList = s.store.eraseList ∧ t.store.abandoned = s.store.abandoned ∧
    t.store.cells = s.store.cells ∧ (s.store.current = none → t.store.current = none) ∧ t.station = s.station ∧
    t.ports = s.ports ∧ t.clock = s.clock ∧ ((∀ n, s.store.current ≠ some (.erase n)) → t.store.suspended = s.store.suspended) ∧
    (s.fiscal.tick = none → t.store.queue = [.checkpoint (s.gather emergency)]) := by
  intro t
  obtain ⟨htick, ht⟩ | ⟨-, ht⟩ := s.beginCheckpoint_cases emergency
  · rw [show t = _ from ht]
    exact ⟨rfl, rfl, rfl, rfl, id, rfl, rfl, rfl, fun _ => rfl, fun h => absurd htick (by rw [h]; exact Bool.false_ne_true)⟩
  · rw [show t = _ from ht]
    obtain he | ⟨n, hn, he⟩ := Store.enqueue_cases { s.store with gatherDue := none } (.checkpoint (s.gather emergency))
    · rw [he]
      exact ⟨rfl, rfl, rfl, rfl, id, rfl, rfl, rfl, fun _ => rfl, fun _ => congrArg (· ++ _) hq⟩
    · rw [he]
      exact ⟨rfl, rfl, rfl, rfl, fun _ => rfl, rfl, rfl, rfl, fun hno => absurd hn (hno n), fun _ => congrArg (· ++ _) hq⟩

/-- Nothing that PFW abandons is an erase still going on. -/
theorem Store.abandon_no_erase (st : Store) (torn : Torn) (n : Nat) : (st.abandon torn).current ≠ some (.erase n) := by
  unfold Store.abandon
  split
  next a ha =>
    split
    next hgo =>
      rw [Store.tearSuspended_current, ha]
      rintro ⟨⟩
      exact absurd hgo Bool.false_ne_true
    next hgo =>
      obtain ⟨cells, ckpts, h⟩ := (st.tearSuspended torn).tearCurrent_changes torn
      rw [h]
      exact Option.some_ne_none _ ∘ Eq.symm
  next hn =>
    rw [Store.tearSuspended_current, hn]
    exact Option.some_ne_none _ ∘ Eq.symm

/-- Settles O49. -/
theorem powerFailWarningGathersTheCheckpoint : Obligations.PowerFailWarningGathersTheCheckpoint := by
  intro torn s hon
  refine ⟨fun hp => ?_, fun hp hset => ?_, fun hp hset => ?_⟩
  · refine congrArg _ (if_pos ?_)
    rw [hp, Bool.or_true]
  · refine congrArg _ ((if_neg ?_).trans (if_pos (by rw [hset]; rfl)))
    rw [hon, hp]; exact Bool.false_ne_true
  · have hwarn : s.warn torn = if s.store.servesCkpt then s.mapStore fun st => st.warn torn
        else ({ s.mapStore fun st => st.warn torn with clock := { s.clock with ckptTicks := 0 } } : State).beginCheckpoint true :=
      (if_neg (by rw [hon, hp]; exact Bool.false_ne_true)).trans (if_neg (by rw [hset]; exact Bool.false_ne_true))
    refine ⟨_, rfl, ?_⟩
    rw [hwarn]
    have hcut : ∀ sector generation image, s.store.current = some (.config sector generation image) →
        Cells.wf s.store.cells = true → sectorBlank s.store.cells sector = true → s.store.suspended ≠ some sector →
        generation ≤ 4294967294 →
        (s.store.warn torn).current = none ∧ classifyConfig (s.store.warn torn).cells sector = .damaged := by
      intro sector generation image hc hw hb hs hg
      rw [Store.warn_eq, Store.abandon_config hc]
      exact Store.cutConfig hc hw hb hs hg torn
    cases hserves : s.store.servesCkpt
    · obtain ⟨hpfw, hlist, haband, hcells, hcurrent, hstation, hports, hclock, hsusp, hqueue⟩ := State.beginCheckpoint_store
        { s.mapStore fun st => st.warn torn with clock := { s.clock with ckptTicks := 0 } } true
        (congrArg Store.queue (s.store.warn_eq torn))
      rw [if_neg Bool.false_ne_true]
      refine ⟨hpfw.trans (congrArg Store.pfw (s.store.warn_eq torn)), hlist.trans (congrArg Store.eraseList (s.store.warn_eq torn)),
        (hsusp fun n => ?_).trans (congrArg Store.suspended (s.store.warn_eq torn)),
        haband.trans (congrArg Store.abandoned (s.store.warn_eq torn)), hstation, hports,
        fun sector generation image hc _ hw hb hs hg => ?_, fun h => absurd h Bool.false_ne_true,
        fun _ htick => ⟨congrArg Clock.ckptTicks hclock, _, hqueue htick, rfl, ?_, rfl, rfl, rfl, fun i => ?_⟩⟩
      · rw [show State.store _ = s.store.warn torn from rfl, s.store.warn_eq]
        exact s.store.abandon_no_erase torn n
      · obtain ⟨h1, h2⟩ := hcut sector generation image hc hw hb hs hg
        exact ⟨hcurrent h1, hcells ▸ h2⟩
      · refine congrArg (· + 1) ((congrArg Store.ckptSequence (s.store.warn_eq torn)).trans ?_)
        exact s.store.abandon_ckptSequence torn
      · simp only [State.gather, State.streamsKept, Table.get_mapFin]
        exact ⟨rfl, rfl⟩
    · rw [if_pos rfl]
      refine ⟨congrArg Store.pfw (s.store.warn_eq torn), congrArg Store.eraseList (s.store.warn_eq torn),
        congrArg Store.suspended (s.store.warn_eq torn), congrArg Store.abandoned (s.store.warn_eq torn), rfl, rfl,
        fun sector generation image hc _ hw hb hs hg => hcut sector generation image hc hw hb hs hg,
        fun _ => ⟨congrArg Store.queue (s.store.warn_eq torn), ?_⟩, fun h => absurd h.symm Bool.false_ne_true⟩
      exact (congrArg Store.current (s.store.warn_eq torn)).trans (Store.abandon_servesCkpt hserves torn)

end Sys2Proof.Machine
end

section

-- One thread per proof would pass the memory limit of the build: each has a stack of its own.
set_option Elab.async false

/-! # Proofs: checkpoints -/

namespace Sys2Proof.Machine

/-! ### The two sectors after a checkpoint (R169) -/

/-- A checkpoint sector. -/
def CkptPlace (m : Nat) : Prop := 2 ≤ m ∧ m < 10

theorem ckptIndex_ne {m n : Nat} (hm : CkptPlace m) (hn : CkptPlace n) (h : m ≠ n) : ckptIndex m ≠ ckptIndex n := by
  intro he
  have hval : (m - 2) % 8 = (n - 2) % 8 := congrArg Fin.val he
  rw [Nat.mod_eq_of_lt (Nat.sub_lt_right_of_lt_add hm.1 hm.2), Nat.mod_eq_of_lt (Nat.sub_lt_right_of_lt_add hn.1 hn.2)] at hval
  exact h (by rw [← Nat.sub_add_cancel hm.1, hval, Nat.sub_add_cancel hn.1])

/-- A checkpoint sector that joins the erase list. -/
theorem Store.listErase_ckpt (st : Store) {n : Nat} (hn : CkptPlace n) : st.listErase n = { st with
    eraseList := st.eraseList ++ if st.eraseList.contains n then [] else [n]
    ckpts := st.ckpts.modify (ckptIndex n) fun c => { c with state := .erasing } } := by
  unfold Store.listErase
  rw [if_neg (not_lt.mpr hn.1), if_pos hn.2]
  split
  · rw [List.append_nil]
  · rfl

/-- A sector that is not ERASED joins the erase list, as the two after a checkpoint do. -/
noncomputable def Store.listUnlessErased (st : Store) (n : Nat) : Store :=
  if (st.ckpt n).state = .erased then st else st.listErase n

/-- A sector that is neither ERASED nor listed. -/
noncomputable def Store.joinsErase (st : Store) (m : Nat) : Bool :=
  decide ((st.ckpt m).state ≠ .erased) && !st.eraseList.contains m

/-- Listed or not, every other checkpoint sector stays. -/
theorem Store.listUnlessErased_spec (st : Store) {n : Nat} (hn : CkptPlace n) :
    (st.listUnlessErased n).eraseList = st.eraseList ++ [n].filter st.joinsErase ∧
    (st.listUnlessErased n).ckpt n =
      (if (st.ckpt n).state = .erased then st.ckpt n else { st.ckpt n with state := .erasing }) ∧
    (∀ m, CkptPlace m → m ≠ n → (st.listUnlessErased n).ckpt m = st.ckpt m) ∧
    st.listUnlessErased n =
      { st with eraseList := (st.listUnlessErased n).eraseList, ckpts := (st.listUnlessErased n).ckpts } := by
  unfold Store.listUnlessErased
  split
  next h =>
    refine ⟨?_, rfl, fun _ _ _ => rfl, rfl⟩
    rw [List.filter_cons_of_neg (by rw [Store.joinsErase, decide_eq_false (not_not.mpr h)]; exact Bool.false_ne_true)]
    exact (List.append_nil _).symm
  next h =>
    rw [st.listErase_ckpt hn]
    refine ⟨congrArg (st.eraseList ++ ·) ?_, Table.get_modify_same .., fun m hm hne => ?_, rfl⟩
    · rw [List.filter_cons, Store.joinsErase, decide_eq_true h, Bool.true_and]
      cases st.eraseList.contains n <;> rfl
    · exact Table.get_modify_ne _ _ (ckptIndex_ne hn hm hne.symm)

/-- Each of several checkpoint sectors joins the erase list unless it is ERASED. -/
theorem foldl_listUnlessErased (l : List Nat) (st : Store) (hl : l.Nodup) (hr : ∀ m ∈ l, CkptPlace m) :
    let t := l.foldl Store.listUnlessErased st
    t.eraseList = st.eraseList ++ l.filter st.joinsErase ∧
    (∀ m, CkptPlace m → t.ckpt m =
      if m ∈ l ∧ (st.ckpt m).state ≠ .erased then { st.ckpt m with state := .erasing } else st.ckpt m) ∧
    t = { st with eraseList := t.eraseList, ckpts := t.ckpts } := by
  induction l generalizing st with
  | nil => exact ⟨(List.append_nil _).symm, fun m _ => (if_neg fun h => absurd h.1 List.not_mem_nil).symm, rfl⟩
  | cons n l ih =>
    obtain ⟨hnot, hl⟩ := List.nodup_cons.mp hl
    have hn := hr n List.mem_cons_self
    obtain ⟨hlist, hself, hothers, hstore⟩ := st.listUnlessErased_spec hn
    obtain ⟨ihlist, ihckpt, ihstore⟩ := ih (st.listUnlessErased n) hl fun m hm => hr m (List.mem_cons_of_mem _ hm)
    refine ⟨?_, fun m hm => ?_, ?_⟩
    · have hrest : l.filter (st.listUnlessErased n).joinsErase = l.filter st.joinsErase := by
        refine List.filter_congr fun m hm => ?_
        have hne : m ≠ n := fun he => hnot (he ▸ hm)
        have hno : ([n].filter st.joinsErase).contains m = false :=
          Bool.eq_false_iff.mpr fun h => hne (List.mem_singleton.mp (List.mem_filter.mp (List.contains_iff_mem.mp h)).1)
        rw [Store.joinsErase, hothers m (hr m (List.mem_cons_of_mem _ hm)) hne, hlist, List.contains_append, hno, Bool.or_false]
        rfl
      rw [List.foldl_cons, ihlist, hrest, hlist, List.append_assoc, ← List.filter_append]
      rfl
    · rw [List.foldl_cons, ihckpt m hm]
      by_cases hne : m = n
      · subst hne
        rw [if_neg fun h => hnot h.1, hself]
        by_cases he : (st.ckpt m).state = .erased
        · rw [if_pos he, if_neg fun h => h.2 he]
        · rw [if_neg he, if_pos ⟨List.mem_cons_self, he⟩]
      · simp only [hothers m hm hne, List.mem_cons, hne, false_or]
    · rw [List.foldl_cons]
      refine ihstore.trans ?_
      rw [hstore]

/-- The seven sectors after a checkpoint sector in the ring. -/
theorem ckptRing_after {n : Nat} (hn : CkptPlace n) :
    ((ckptRing n).take 7).Nodup ∧ ∀ m ∈ (ckptRing n).take 7, CkptPlace m ∧ m ≠ n := by
  have hring : ∀ k : Fin 8, ((ckptRing (k.val + 2)).take 7).Nodup ∧
      ∀ m ∈ (ckptRing (k.val + 2)).take 7, (2 ≤ m ∧ m < 10) ∧ m ≠ k.val + 2 := by decide
  have h := hring ⟨n - 2, Nat.sub_lt_right_of_lt_add hn.1 hn.2⟩
  rwa [Nat.sub_add_cancel hn.1] at h

/-- What a checkpoint that verifies leaves: its sector HELD, and the two after it listed unless ERASED. -/
theorem Store.ckptDone_spec (st : Store) (c : Checkpoint) {n : Nat} (hn : CkptPlace n) :
    let t := st.ckptDone c n
    let after := (((ckptRing n).take 7).filter fun m => decide ((st.ckpt m).state ≠ .retired)).take 2
    t.eraseList = st.eraseList ++ after.filter st.joinsErase ∧ t.ckpt n = ⟨.held, .good c st.pfw⟩ ∧
    (∀ m, CkptPlace m → m ≠ n → t.ckpt m =
      if m ∈ after ∧ (st.ckpt m).state ≠ .erased then { st.ckpt m with state := .erasing } else st.ckpt m) ∧
    t = { st with
      ckpts := t.ckpts, eraseList := t.eraseList, lastCkpt := n, ckptSequence := st.ckptSequence + 1, current := none } := by
  intro t after
  let u : Store := { st with
    ckpts := st.ckpts.set (ckptIndex n) ⟨.held, .good c st.pfw⟩
    lastCkpt := n, ckptSequence := st.ckptSequence + 1, current := none }
  have hsame : ∀ m, CkptPlace m → m ≠ n → u.ckpt m = st.ckpt m := fun m hm hne =>
    Table.get_set_ne _ _ (ckptIndex_ne hn hm hne.symm)
  obtain ⟨hnodup, hring⟩ := ckptRing_after hn
  have hafter : u.twoAfter n = after := by
    refine congrArg (List.take 2) (List.filter_congr fun m hm => ?_)
    obtain ⟨hplace, hne⟩ := hring m hm
    rw [hsame m hplace hne]
    exact Bool.eq_iff_iff.mpr (by rw [bne_iff_ne, decide_eq_true_eq])
  have hin : ∀ m ∈ after, CkptPlace m ∧ m ≠ n := fun m hm => hring m (List.mem_filter.mp (List.mem_of_mem_take hm)).1
  obtain ⟨hlist, hckpt, hstore⟩ := foldl_listUnlessErased after u ((hnodup.filter _).sublist (List.take_sublist ..))
    fun m hm => (hin m hm).1
  have ht : t = after.foldl Store.listUnlessErased u := by rw [← hafter]; rfl
  rw [ht]
  refine ⟨hlist.trans (congrArg _ (List.filter_congr fun m hm => ?_)), ?_, fun m hm hne => ?_, ?_⟩
  · obtain ⟨hplace, hne⟩ := hin m hm
    rw [Store.joinsErase, hsame m hplace hne]; rfl
  · rw [hckpt n hn, if_neg fun h => (hin n h.1).2 rfl]
    exact Table.get_set_same ..
  · rw [hckpt m hm, hsame m hm hne]
  · exact hstore

/-! ### Periodic checkpoints (R168) -/

/-- Settles O48. -/
theorem checkpointsAreGatheredAndHeld : Obligations.CheckpointsAreGatheredAndHeld := by
  refine ⟨fun s hrun hpfw hdue => ?_, fun c n s hcur h2 h10 => ⟨?_, fun sequence => ?_⟩⟩
  · have hd : s.checkpointDue = true := by
      rw [State.checkpointDue, hrun, hpfw, decide_eq_true (show checkpointTicks ≤ s.clock.ckptTicks from hdue)]; rfl
    refine ⟨fun hout => congrArg _ ((if_pos hd).trans (if_pos hout)), fun hout htick hidle => ?_⟩
    refine congrArg _ ((if_pos hd).trans ((if_neg (by rw [hout]; exact Bool.false_ne_true)).trans ?_))
    obtain ⟨hsome, -⟩ | ⟨-, ht⟩ := State.beginCheckpoint_cases { s with clock := { s.clock with ckptTicks := 0 } } false
    · rw [htick] at hsome; cases hsome
    · have hgd : s.store.gatherDue = none := by
        unfold Store.ckptOutstanding at hout
        cases hg : s.store.gatherDue with
        | none => rfl
        | some e => rw [hg] at hout; cases hout
      rw [ht, Store.enqueue]
      dsimp only
      rw [hidle, ← hgd]
      rfl
  · obtain ⟨hlist, hheld, hothers, hstore⟩ := s.store.ckptDone_spec c ⟨h2, h10⟩
    have hexec : exec (.checkpointProgramDone none) s = .next (s.mapStore fun st => st.ckptDone c n) := by
      show execCheckpointProgramDone none s = _
      rw [execCheckpointProgramDone, hcur]
    refine ⟨_, hexec, ?_⟩
    show (s.store.ckptDone c n).current = none ∧ _
    refine ⟨congrArg Store.current hstore, congrArg Store.lastCkpt hstore, congrArg Store.ckptSequence hstore, hheld,
      (congrArg Store.cells hstore :), rfl, (congrArg Store.queue hstore :), (congrArg Store.index hstore :), hlist,
      fun m hm2 hm10 hne => hothers m ⟨hm2, hm10⟩ hne⟩
  · show execCheckpointProgramDone (some sequence) s = _
    rw [execCheckpointProgramDone, hcur]
    rfl

end Sys2Proof.Machine
end

section

-- One thread per proof would pass the memory limit of the build: each has a stack of its own.
set_option Elab.async false

/-! # Proofs: ADJUST TIME (R180) -/

namespace Sys2Proof.Machine

theorem mem_allParties (p : Party) : p ∈ allParties := by
  cases p <;> decide

/-! ### The partner of a step -/

/-- Another party's pending step of the sign of `step`. -/
def State.Pairs (s : State) (p : Party) (step : Int) (q : Party) (other : Int) : Prop :=
  q ≠ p ∧ (0 < step ∧ 0 < other ∨ step < 0 ∧ other < 0) ∧
    ∃ x, s.clock.adjustments.get (partyIndex q) = some x ∧ x.step = other

/-- What the search for a partner finds at one party. -/
noncomputable def State.offers (s : State) (p : Party) (step : Int) (q : Party) : Option (Party × Int) :=
  if q = p then none
  else match s.clock.adjustments.get (partyIndex q) with
    | some x => if sameSign x.step step then some (q, x.step) else none
    | none => none

theorem State.partner_eq (s : State) (p : Party) (step : Int) : s.partner p step = allParties.findSome? (s.offers p step) := by
  unfold State.partner State.offers
  rfl

theorem sameSign_iff (a b : Int) : sameSign a b = true ↔ 0 < b ∧ 0 < a ∨ b < 0 ∧ a < 0 := by
  rw [sameSign, decide_eq_true_eq, and_comm, and_comm (a := a < 0)]

theorem State.offers_eq_some_iff (s : State) (p : Party) (step : Int) (q r : Party) (other : Int) :
    s.offers p step q = some (r, other) ↔ q = r ∧ s.Pairs p step q other := by
  unfold State.offers State.Pairs
  by_cases hq : q = p
  · rw [if_pos hq]
    exact ⟨fun h => absurd h.symm (Option.some_ne_none _), fun h => absurd hq h.2.1⟩
  · rw [if_neg hq]
    cases s.clock.adjustments.get (partyIndex q) with
    | none =>
      exact ⟨fun h => absurd h.symm (Option.some_ne_none _),
        fun ⟨_, _, _, x, hx, _⟩ => absurd hx.symm (Option.some_ne_none _)⟩
    | some x =>
      dsimp only
      constructor
      · intro h
        split at h
        next hsign =>
          obtain ⟨rfl, rfl⟩ := Prod.mk.inj (Option.some.inj h)
          exact ⟨rfl, hq, (sameSign_iff ..).mp hsign, x, rfl, rfl⟩
        next => cases h
      · rintro ⟨rfl, -, hsign, y, hy, rfl⟩
        obtain rfl := Option.some.inj hy
        rw [if_pos ((sameSign_iff ..).mpr hsign)]

theorem State.partner_eq_none_iff (s : State) (p : Party) (step : Int) :
    s.partner p step = none ↔ ∀ q other, ¬s.Pairs p step q other := by
  rw [State.partner_eq, List.findSome?_eq_none_iff]
  refine ⟨fun h q other hp => ?_, fun h q _ => Option.eq_none_iff_forall_ne_some.mpr fun ⟨r, other⟩ hr => ?_⟩
  · exact Option.some_ne_none _ (((s.offers_eq_some_iff ..).mpr ⟨rfl, hp⟩).symm.trans (h q (mem_allParties q)))
  · exact h q other ((s.offers_eq_some_iff ..).mp hr).2

theorem State.partner_pairs {s : State} {p q : Party} {step other : Int} (h : s.partner p step = some (q, other)) :
    s.Pairs p step q other := by
  rw [State.partner_eq] at h
  obtain ⟨r, -, hr⟩ := List.exists_of_findSome?_eq_some h
  obtain ⟨rfl, hp⟩ := (s.offers_eq_some_iff ..).mp hr
  exact hp

/-! ### The adjustment -/

theorem State.applyAdjustment_take (s : State) (p r q : Party) (n : Int) :
    (s.mapPort r Port.take).applyAdjustment p q n = (s.applyAdjustment p q n).mapPort r Port.take :=
  State.post_take (s.mapClock fun k => { k with
    time := (s.clampedMove n).toNat, domain := (s.clampedMove n).toNat, suspect := false, adjustments := noAdjustments
    lastAdjustment := some ⟨n, s.clampedMove n - s.clock.time, (s.clampedMove n).toNat,
      if partyCode p < partyCode q then p else q, if partyCode p < partyCode q then q else p⟩ }) ..

/-- The clock that an adjustment leaves. -/
theorem State.applyAdjustment_clock (s : State) (p q : Party) (n : Int) : (s.applyAdjustment p q n).clock = { s.clock with
    time := (s.clampedMove n).toNat, domain := (s.clampedMove n).toNat, suspect := false
    adjustments := Table.replicate 3 none
    lastAdjustment := some ⟨n, s.clampedMove n - s.clock.time, (s.clampedMove n).toNat,
      if partyCode p < partyCode q then p else q, if partyCode p < partyCode q then q else p⟩ } :=
  State.post_clock ..

/-- A move is the step asked when it ends where that leads. -/
theorem moved_iff (time now step : Int) : time - now = step ↔ time = now + step := by
  rw [sub_eq_iff_eq_add, add_comm]

theorem State.applyAdjustment_port {s : State} (h : s.settled = true) (p q r : Party) (n : Int) :
    (s.applyAdjustment p q n).port r = (s.port r).arrive ⟨.timeAdjusted, 0, (s.clampedMove n).toNat,
      BitVec.ofInt 32 (s.clampedMove n - s.clock.time), false, if s.clampedMove n = s.clock.time + n then 0 else 1, 0⟩ := by
  have hmarks : (if s.clampedMove n - s.clock.time = n then 0 else 1) =
      if s.clampedMove n = s.clock.time + n then 0 else 1 := if_congr (moved_iff ..) rfl rfl
  unfold State.applyAdjustment
  dsimp only
  rw [hmarks, State.post, if_pos (show State.settled (State.mapClock _ _) = true from h),
    State.deliver_port_mem _ (by decide) _ (mem_allParties r)]
  rfl

/-- A clamped move stays in the interval that station time lies in. -/
theorem State.clampedMove_interval {s : State} (h : 0 < s.img.intervalLength) (n : Int) :
    intervalOf s.img (s.clampedMove n).toNat = intervalOf s.img s.clock.time := by
  obtain ⟨hlo, hhi, hpos⟩ := s.clampedMove_inside n h
  obtain ⟨t, ht⟩ := Int.eq_ofNat_of_zero_le hpos
  rw [ht] at hlo hhi ⊢
  unfold State.intervalEnd State.intervalStart at *
  refine Nat.div_eq_of_lt_le ?_ ?_
  · exact Int.ofNat_le.mp (by rw [Int.natCast_add]; exact sub_le_iff_le_add.mp hlo)
  · rw [Nat.succ_mul]
    refine Int.ofNat_lt.mp ?_
    rw [Int.natCast_add, Int.natCast_add]
    exact (Int.add_lt_add_right hhi _).trans_eq (by rw [add_right_comm, Int.sub_add_cancel]; rfl)

/-- Settles O50. -/
theorem timeIsAdjustedInsideTheInterval : Obligations.TimeIsAdjustedInsideTheInterval := by
  refine ⟨fun p step s hserves => ?_, fun p step s => ⟨s.partner_eq_none_iff p step, fun q other h => State.partner_pairs h⟩,
    fun p step s t hlen h => ?_⟩
  · intro put
    refine ⟨fun hout => ?_, fun hz => ?_, fun hne hlo hhi hnone => ?_, fun q other hne hlo hhi hsome hlen => ?_⟩
    · exact congrArg _ (State.request_completes hserves (if_pos hout))
    · subst hz
      exact congrArg _ (State.request_serves (u := put none) hserves ((if_neg (by decide)).trans (if_pos rfl)))
    · have hin : ¬(step < -60 ∨ 60 < step) := fun h => h.elim hlo.not_gt hhi.not_gt
      refine congrArg _ (State.request_serves (u := put (some ⟨step, s.clock.time⟩)) hserves
        ((if_neg hin).trans ((if_neg hne).trans ?_)))
      rw [show (s.mapPort p Port.take).partner p step = none from hnone]
      rfl
    · intro requested moved clamped
      have hin : ¬(step < -60 ∨ 60 < step) := fun h => h.elim hlo.not_gt hhi.not_gt
      obtain ⟨hback, hforth, hpast⟩ := s.clampedMove_cases requested
      obtain ⟨-, -, hpos⟩ := s.clampedMove_inside requested hlen
      have hclock := s.applyAdjustment_clock p q requested
      refine ⟨s.clampedMove requested, s.applyAdjustment p q requested, fun hle => ?_, fun hlt hr => ?_, fun hr => ?_, ?_,
        ?_, ?_, ?_, ?_, ⟨_, congrArg Clock.lastAdjustment hclock, rfl, rfl, ?_, ?_⟩, fun r => State.applyAdjustment_port hserves.1 ..,
        State.post_tracker .., State.post_billing .., State.post_fiscal ..⟩
      · by_cases hr : 0 < requested
        · rw [show clamped = min moved (s.intervalEnd - 1) from if_pos hr] at hle ⊢
          exact hforth hr hle
        · exact (hback (not_lt.mp hr)).trans (if_neg hr).symm
      · rw [show clamped = min moved (s.intervalEnd - 1) from if_pos hr] at hlt
        exact hpast hr hlt
      · exact (hback hr.le).trans (if_neg hr.not_gt).symm
      · refine congrArg _ (State.request_serves hserves ((if_neg hin).trans ((if_neg hne).trans ?_)))
        rw [show (s.mapPort p Port.take).partner p step = some (q, other) from hsome]
        refine Prod.ext (State.applyAdjustment_take ..) (congrArg₂ Reply.done ?_
          (congrArg (beInt 1 (s.clampedMove requested - s.clock.time) ++ be 4 ·) ?_))
        · have hresult : okOrClamped (s.clampedMove requested - s.clock.time != requested) =
              if s.clampedMove requested - s.clock.time = requested then .ok else .clamped := by
            by_cases hm : s.clampedMove requested - s.clock.time = requested
            · rw [if_pos hm, bne_eq_false_iff_eq.mpr hm]; rfl
            · rw [if_neg hm, bne_iff_ne.mpr hm]; rfl
          exact hresult.trans (if_congr (moved_iff ..) rfl rfl)
        · exact congrArg Clock.time ((s.mapPort p Port.take).applyAdjustment_clock p q requested)
      · rw [hclock]
        exact Int.toNat_of_nonneg hpos
      · rw [hclock]
      · rw [hclock]
      · rw [hclock]
      · rw [hclock]
      · by_cases hc : partyCode p < partyCode q
        · rw [if_pos hc, if_pos hc]; exact .inl ⟨rfl, rfl⟩
        · rw [if_neg hc, if_neg hc]; exact .inr ⟨rfl, rfl⟩
  · obtain rfl : s.request p .adjustTime (adjustRule p step) = t := by
      injection h
    have hfinish : ∀ x : State × Reply, (State.finish p x).clock = x.1.clock ∧ (State.finish p x).station = x.1.station := by
      rintro ⟨u, _ | _⟩ <;> exact ⟨rfl, rfl⟩
    have hrule : ∀ u : State, 0 < u.img.intervalLength →
        (adjustRule p step u).1.station = u.station ∧
        intervalOf u.img (adjustRule p step u).1.clock.time = intervalOf u.img u.clock.time := by
      intro u hu
      unfold adjustRule
      split
      · exact ⟨rfl, rfl⟩
      · split
        · exact ⟨rfl, rfl⟩
        · split
          · exact ⟨rfl, rfl⟩
          next q other _ =>
            refine ⟨State.post_station .., ?_⟩
            rw [u.applyAdjustment_clock p q]
            exact State.clampedMove_interval hu _
    rcases s.request_cases p .adjustTime (adjustRule p step) with ⟨-, he⟩ | ⟨-, -, he⟩ | ⟨-, -, he⟩ | ⟨-, -, he⟩ <;> rw [he]
    · rfl
    · rfl
    · obtain ⟨hclock, hstation⟩ := hfinish (adjustRule p step (s.mapPort p Port.take))
      obtain ⟨hst, htime⟩ := hrule (s.mapPort p Port.take) hlen
      rw [hclock, State.img_congr (hstation.trans hst)]
      exact htime

end Sys2Proof.Machine
end

section

-- One thread per proof would pass the memory limit of the build: each has a stack of its own.
set_option Elab.async false

/-! # Proofs: the end of a commit -/

namespace Sys2Proof.Machine

/-! ### Responses and windows -/

/-- A response placed at one port: the others stay, and no queue moves. -/
theorem State.respond_port (s : State) (p q : Party) (r : Result) (data : List Byte) : (s.respond p r data).port q =
    if p = q then (s.port p).respond r data else s.port q := by
  by_cases h : p = q
  · subst h
    rw [if_pos rfl]
    exact Table.get_modify_same ..
  · rw [if_neg h]
    exact Table.get_modify_ne _ _ (partyIndex_ne h)

theorem State.respond_queue (s : State) (p q : Party) (r : Result) (data : List Byte) :
    ((s.respond p r data).port q).queue = (s.port q).queue := by
  rw [State.respond_port]
  split
  · next h => rw [h]; rfl
  · rfl

theorem State.respond_slot (s : State) (p : Party) (r : Result) (data : List Byte) :
    ((s.respond p r data).port p).slot = .ready ⟨(s.port p).dropped, r, data⟩ := by
  rw [State.respond_port, if_pos rfl]; rfl

/-- Two states whose comparison windows are judged alike. -/
structure JudgedAlike (s t : State) : Prop where
  station : s.station = t.station
  clock : s.clock = t.clock
  windows : s.pulses.windows = t.pulses.windows

theorem JudgedAlike.windowEnd {s t : State} (h : JudgedAlike s t) (i : Fin 8) :
    JudgedAlike (s.windowEnd i) (t.windowEnd i) ∧ (s.ports = t.ports → (s.windowEnd i).ports = (t.windowEnd i).ports) := by
  obtain ⟨hst, hclock, hwin⟩ := h
  have hset : ∀ w, JudgedAlike (s.mapPulses fun x => { x with windows := x.windows.set i w })
      (t.mapPulses fun x => { x with windows := x.windows.set i w }) := fun w =>
    ⟨hst, hclock, congrArg (fun x : Table CheckWindow 8 => x.set i w) hwin⟩
  have hposted : ∀ w k n v, s.ports = t.ports →
      ((s.mapPulses fun x => { x with windows := x.windows.set i w }).post allParties k n v).ports =
        ((t.mapPulses fun x => { x with windows := x.windows.set i w }).post allParties k n v).ports := fun w k n v hp =>
    State.post_ports_congr (s := s.mapPulses fun x => { x with windows := x.windows.set i w })
      (t := t.mapPulses fun x => { x with windows := x.windows.set i w }) hp hst hclock ..
  unfold State.windowEnd
  dsimp only
  rw [hwin, State.img_congr hst]
  split
  · split
    · obtain ⟨h2, h3, h4⟩ := hset ⟨0, 0, 0, (t.pulses.windows.get i).mismatch (t.img.mismatchLimit i)⟩
      exact ⟨⟨by rw [State.post_station, State.post_station, h2], by rw [State.post_clock, State.post_clock, h3],
        by rw [State.post_pulses, State.post_pulses, h4]⟩, fun hp => hposted _ _ _ _ hp⟩
    · exact ⟨hset _, id⟩
  · exact ⟨⟨hst, hclock, hwin⟩, id⟩

theorem JudgedAlike.endWindows {s t : State} (h : JudgedAlike s t) :
    JudgedAlike s.endWindows t.endWindows ∧ (s.ports = t.ports → s.endWindows.ports = t.endWindows.ports) := by
  unfold State.endWindows
  generalize List.finRange 8 = l
  induction l generalizing s t with
  | nil => exact ⟨h, id⟩
  | cons i l ih =>
    obtain ⟨h', hports⟩ := h.windowEnd i
    obtain ⟨hall, hall'⟩ := ih h'
    exact ⟨hall, fun hp => hall' (hports hp)⟩

theorem State.windowEnd_dropped (s : State) (i : Fin 8) (q : Party) : ((s.windowEnd i).port q).dropped = (s.port q).dropped := by
  unfold State.windowEnd
  dsimp only
  split
  · split
    · obtain ⟨-, hd, -, -⟩ := State.post_port_kept (s.mapPulses fun x =>
        { x with windows := x.windows.set i ⟨0, 0, 0, (s.pulses.windows.get i).mismatch (s.img.mismatchLimit i)⟩ }) allParties
        .pulseMismatch i.val (noticeInt (((s.pulses.windows.get i).main : Int) - (s.pulses.windows.get i).check)) 0 0 q
      exact hd
    · rfl
  · rfl

theorem State.endWindows_dropped (s : State) (q : Party) : (s.endWindows.port q).dropped = (s.port q).dropped := by
  unfold State.endWindows
  generalize List.finRange 8 = l
  induction l generalizing s with
  | nil => rfl
  | cons i l ih => rw [List.foldl_cons, ih, State.windowEnd_dropped]

/-! ### A configuration program ends (R16, R167) -/

theorem Store.listErase_config {st : Store} {n : Nat} (h : n < 2) (hn : n ∉ st.eraseList) :
    st.listErase n = { st with eraseList := st.eraseList ++ [n] } := by
  have hno : ¬st.eraseList.contains n = true := by simpa using hn
  unfold Store.listErase
  rw [if_neg hno, if_pos h]

theorem exec_configProgramDone {s : State} {sector generation : Nat} {image : Image}
    (h : s.store.current = some (.config sector generation image)) :
    exec (.configProgramDone none) s = .next (s.configDone sector generation image) ∧
    ∀ unit left, unit < 59 →
      programFails s.store.cells (sector * 4096 + 32 * unit) ((imageBytes generation image).drop (32 * unit)) left = true →
      exec (.configProgramDone (some (unit, left))) s =
        .next (s.configFails sector unit (imageBytes generation image) left) := by
  refine ⟨?_, fun unit left hunit hfail => ?_⟩
  · show execConfigProgramDone none s = _
    rw [execConfigProgramDone, h]
  · show execConfigProgramDone (some (unit, left)) s = _
    rw [execConfigProgramDone, h]
    exact congrArg _ (if_pos ⟨hunit, hfail⟩)

theorem State.configDone_eq {s : State} {sector generation : Nat} {image : Image} {c : Commit}
    (hc : s.station.commit = some c) (hn : 1 - sector ∉ s.store.eraseList) : s.configDone sector generation image = { s with
      station := { s.station with commit := some { c with phase := .erasingOther } }
      store := { s.store with
        cells := programBytes s.store.cells (sector * 4096) (imageBytes generation image)
        current := none, imageSector := some sector, eraseList := s.store.eraseList ++ [1 - sector] } } := by
  have hlist := Store.listErase_config (st := { s.store with
    cells := programBytes s.store.cells (sectorBase sector) (imageBytes generation image)
    current := none, imageSector := some sector }) (Nat.lt_succ_of_le (Nat.sub_le 1 sector)) hn
  have hcommit : s.station.commit.map (fun c => { c with phase := .erasingOther }) =
      some { c with phase := .erasingOther } := by rw [hc]; rfl
  exact congrArg₂ (fun (k : Option Commit) (st : Store) =>
    ({ s with station := { s.station with commit := k }, store := st } : State)) hcommit hlist

theorem State.failCommit_eq {s : State} {c : Commit} (hc : s.station.commit = some c) : s.failCommit =
    (s.mapStation fun x => { x with commit := none, approvals := noApprovals }).respond c.approver .state [] := by
  rw [State.failCommit, hc]

/-- What a configuration program that fails leaves of the store. -/
noncomputable def State.configTorn (s : State) (sector unit : Nat) (written left : List Byte) : State :=
  s.mapStore fun st => { st with
    cells := programBytes (programBytes st.cells (sectorBase sector) (written.take (32 * unit)))
      (sectorBase sector + 32 * unit) (unitOf left)
    current := none }

theorem State.configFails_eq {s : State} {c : Commit} (hc : s.station.commit = some c) (sector unit : Nat)
    (written left : List Byte) : s.configFails sector unit written left =
      (((s.configTorn sector unit written left).post allParties .storeDefect sector 1#32).mapStation fun x =>
        { x with commit := none, approvals := noApprovals }).respond c.approver .state [] := by
  refine State.failCommit_eq (s := (s.configTorn sector unit written left).post allParties .storeDefect sector 1#32) ?_
  rw [State.post_station]; exact hc

/-! ### A configuration sector's erase ends (R16, R17, R18) -/

/-- The state once the erase of a configuration sector has ended, its failure told. -/
noncomputable def State.eraseTold (s : State) (n : Nat) (left : List Byte) : State :=
  let u := s.mapStore fun st => st.eraseEnded n left
  if (left.take 4096).all fun b => b == erasedByte then u else u.postDefect n 2

/-- What the ports are told of that erase. -/
noncomputable def State.eraseNoticed (s : State) (n : Nat) (left : List Byte) : State :=
  if (left.take 4096).all fun b => b == 0xFF#8 then s else s.post allParties .storeDefect n 2#32

theorem State.eraseNoticed_frame (s : State) (n : Nat) (left : List Byte) :
    (∃ p, s.eraseNoticed n left = { s with ports := p }) ∧
    ∀ q, ((s.eraseNoticed n left).port q).dropped = (s.port q).dropped := by
  unfold State.eraseNoticed
  split
  · exact ⟨⟨_, rfl⟩, fun _ => rfl⟩
  · refine ⟨s.post_frame .., fun q => ?_⟩
    obtain ⟨-, h, -⟩ := s.post_port_kept allParties .storeDefect n 2#32 0 0 q
    exact h

theorem State.eraseTold_eq (s : State) (n : Nat) (left : List Byte) :
    s.eraseTold n left = { s with ports := (s.eraseNoticed n left).ports, store := s.store.eraseEnded n left } := by
  unfold State.eraseTold State.eraseNoticed
  dsimp only
  by_cases hok : (left.take 4096).all (fun b => b == erasedByte) = true
  · rw [if_pos hok, if_pos (show (left.take 4096).all (fun b => b == 0xFF#8) = true from hok)]
    rfl
  · rw [if_neg hok, if_neg (show ¬(left.take 4096).all (fun b => b == 0xFF#8) = true from hok)]
    obtain ⟨p, hp⟩ := (s.mapStore fun st => st.eraseEnded n left).post_frame allParties .storeDefect n 2#32 0 0
    have hports := congrArg State.ports hp
    rw [State.post_mapStore_ports] at hports
    rw [hports]
    exact hp

/-- The erase of the other configuration sector ends the commit. -/
theorem exec_lastErase {s : State} {n : Nat} {left : List Byte} {c : Commit} (h : s.store.current = some (.erase n)) (hn : n < 2)
    (hc : s.station.commit = some c) (hphase : c.phase = .erasingOther) (hne : c.target ≠ n) (htick : s.fiscal.tick = none) :
    exec (.sectorEraseDone left) s = .next (s.eraseTold n left).enterOperating := by
  rw [exec_sectorEraseDone h]
  refine congrArg _ ((if_pos hn).trans ?_)
  have hend : (s.eraseTold n left).endCommit = (s.eraseTold n left).enterOperating := by
    refine if_neg ?_
    rw [State.eraseTold_eq]
    show ¬s.fiscal.tick.isSome = true
    rw [htick]; exact Bool.false_ne_true
  rw [State.configErased]
  rw [show (State.mapStore _ _).station.commit = some c from hc]
  dsimp only
  rw [if_neg (by rw [hphase]; exact fun h => absurd h.1 (by decide)), if_pos ⟨hphase, hne⟩]
  exact hend

/-- Entry to OPERATING from RECONFIGURING: what the commit leaves of the windows' judgement and of the station. -/
theorem State.enterOperating_of_settled {u : State} {c : Commit} (hc : u.station.commit = some c)
    (hst : u.station.state = .reconfiguring) :
    u.enterOperating = u.endWindows.enterFromReconfiguring.respond c.approver .ok [] := by
  rw [State.enterOperating, hc]
  dsimp only
  rw [if_neg (by rw [hst]; decide)]

/-! ### A consumer at the commit (R18) -/

theorem committedConsumer_of_new {old new : Image} {e : Fin 12} {q : Party} (ho : old.operator e = none)
    (hn : new.operator e = some q) (c : Consumer) :
    committedConsumer old new e c = ⟨.ready, new.limits e, 0, none, none, 0, 0, 0, none, false⟩ := by
  unfold committedConsumer firstConsumer
  rw [ho, hn]
  rfl

theorem committedConsumer_of_both {old new : Image} {e : Fin 12} {p q : Party} (ho : old.operator e = some p)
    (hn : new.operator e = some q) (c : Consumer) : committedConsumer old new e c =
      if p = q then c.limitTo (new.limits e) else (c.limitTo (new.limits e)).settle := by
  unfold committedConsumer
  rw [ho, hn]

theorem windowRestarts_eq_false_iff (old new : Image) (i : Fin 8) : windowRestarts old new i = false ↔
    old.streamKind i = new.streamKind i ∧ old.mainInput i = new.mainInput i ∧ old.checkInput i = new.checkInput i := by
  rw [windowRestarts, Bool.or_eq_false_iff, Bool.or_eq_false_iff, bne_eq_false_iff_eq, bne_eq_false_iff_eq, bne_eq_false_iff_eq,
    and_assoc]

/-- Settles O46: the program that verifies or fails, then the erase that ends the commit. -/
theorem commitsRunToTheirEnd : Obligations.CommitsRunToTheirEnd := by
  refine ⟨fun sector generation image c s hcur hc => ?_, fun n left c s hcur hn hc hphase hne htick hst => ?_⟩
  · obtain ⟨hdone, hfails⟩ := exec_configProgramDone hcur
    refine ⟨fun hlist => hdone.trans (congrArg _ (State.configDone_eq hc hlist)), fun unit left hunit hfail => ?_⟩
    refine ⟨_, (hfails unit left hunit hfail).trans (congrArg _ (State.configFails_eq hc ..)), ?_⟩
    have hports : ∀ q, State.port ((s.configTorn sector unit (imageBytes generation image) left).post allParties .storeDefect
        sector 1#32) q = (s.post allParties .storeDefect sector 1#32).port q := fun q =>
      congrArg (Table.get · (partyIndex q)) (State.post_mapStore_ports ..)
    obtain ⟨-, hdropped, -⟩ := s.post_port_kept allParties .storeDefect sector 1#32 0 0 c.approver
    refine ⟨?_, (State.respond_slot ..).trans ?_, fun q => (State.respond_queue ..).trans ?_, ?_, ?_⟩
    · exact congrArg (fun x : Station => { x with commit := none, approvals := noApprovals }) (State.post_station ..)
    · rw [← hdropped, ← hports]; rfl
    · rw [← hports]; rfl
    · exact (congrArg Store.imageSector (State.post_store ..) :)
    · exact (congrArg Store.current (State.post_store ..) :)
  · intro new
    have htold := s.eraseTold_eq n left
    obtain ⟨⟨p, hnoticed⟩, hdropped⟩ := s.eraseNoticed_frame n left
    obtain ⟨ps, ws, hframe⟩ := (s.eraseTold n left).endWindows_frame
    have hwindows : (s.eraseTold n left).endWindows.pulses.windows = s.endWindows.pulses.windows :=
      (JudgedAlike.endWindows (s := s.eraseTold n left) (t := s) (by rw [htold]; exact ⟨rfl, rfl, rfl⟩)).1.windows
    have hports : (s.eraseTold n left).endWindows.ports = (s.eraseNoticed n left).endWindows.ports :=
      (JudgedAlike.endWindows (s := s.eraseTold n left) (t := s.eraseNoticed n left)
        (by rw [htold, hnoticed]; exact ⟨rfl, rfl, rfl⟩)).2 (by rw [htold])
    have hended : (s.eraseTold n left).endWindows =
        { s with ports := ps, store := s.store.eraseEnded n left, pulses := { s.pulses with windows := ws } } := by
      rw [hframe, htold]
    rw [hended] at hwindows hports
    have hexec := exec_lastErase (left := left) hcur hn hc hphase hne htick
    rw [State.enterOperating_of_settled (u := s.eraseTold n left) (c := c) (by rw [htold]; exact hc) (by rw [htold]; exact hst),
      hended] at hexec
    have hport : ∀ q, ps.get (partyIndex q) = (s.eraseNoticed n left).endWindows.port q := fun q =>
      congrArg (Table.get · (partyIndex q)) hports
    refine ⟨_, hexec, rfl, rfl, rfl, rfl, rfl, (State.respond_slot ..).trans ?_, fun q => (State.respond_queue ..).trans ?_, rfl,
      rfl, rfl, rfl, rfl, rfl, rfl, fun i => Table.get_mapFin .., fun i => (Table.get_mapFin ..).trans ?_, fun e => ?_⟩
    · refine congrArg (fun d => ResponseSlot.ready ⟨d, .ok, []⟩) ((congrArg Port.dropped (hport c.approver)).trans ?_)
      rw [State.endWindows_dropped, hdropped]
    · exact congrArg Port.queue (hport q)
    · rw [show (State.pulses _).windows = s.endWindows.pulses.windows from hwindows]
      have hiff := windowRestarts_eq_false_iff s.img new i
      by_cases hr : windowRestarts s.img new i = true
      · exact (if_pos hr).trans (if_neg fun h => absurd (hiff.mpr h) (by rw [hr]; decide)).symm
      · exact (if_neg hr).trans (if_pos (hiff.mp (Bool.eq_false_iff.mpr hr))).symm
    · intro old limited
      have hconsumer : ∀ t : State, t.alloc.consumers = s.alloc.consumers.mapFin (committedConsumer s.img new) →
          t.consumer e = committedConsumer s.img new e old := fun t ht =>
        (congrArg (Table.get · e) ht).trans (Table.get_mapFin ..)
      refine ⟨fun hnone => ?_, fun q ho hq => ?_, fun p q ho hq => ⟨fun hpq => ?_, fun hpq => ?_⟩⟩
      · rw [hconsumer _ rfl, committedConsumer_of_absent hnone]
        exact ⟨rfl, rfl, rfl, rfl⟩
      · exact (hconsumer _ rfl).trans (committedConsumer_of_new ho hq _)
      · exact (hconsumer _ rfl).trans ((committedConsumer_of_both ho hq _).trans (if_pos hpq))
      · exact (hconsumer _ rfl).trans ((committedConsumer_of_both ho hq _).trans (if_neg hpq))

end Sys2Proof.Machine
end

section

-- One thread per proof would pass the memory limit of the build: each has a stack of its own.
set_option Elab.async false

/-! # Proofs: the start of the station (R17) -/

namespace Sys2Proof.Machine

/-! ### First values -/

/-- R135: the identities issued from 0 on count up. -/
theorem identityAfter_zero {k : Nat} (h : k ≤ 4294967295) : identityAfter 0 k = k := by
  induction k with
  | zero => rfl
  | succ k ih =>
    rw [identityAfter, ih (Nat.le_of_succ_le h)]
    exact if_pos h

theorem length_filter_contracts (p : Fin 4 → Bool) : ((List.finRange 4).filter p).length ≤ 4294967295 :=
  (List.length_filter_le ..).trans (by decide)

theorem pricedOrdinal_eq (img : Image) (k : Fin 4) : pricedOrdinal img k =
    (((List.finRange 4).filter fun d => !img.isRecord d).filter fun d => decide (d ≤ k)).length := by
  rw [List.filter_filter, pricedOrdinal]
  exact congrArg List.length (List.filter_congr fun d _ => Bool.and_comm ..)

/-- R17, R135: the commissioning tariff of a contract. -/
theorem commissioningTariff_eq (img : Image) (k : Fin 4) : commissioningTariff img 0 k = if img.isRecord k then none else
    some ⟨(((List.finRange 4).filter fun d => !img.isRecord d).filter fun d => decide (d ≤ k)).length,
      (img.bands k).map fun b => ⟨b, b.price * img.percentage k / 100⟩, img.percentage k⟩ := by
  have hid : identityAfter 0 (pricedOrdinal img k) = pricedOrdinal img k := identityAfter_zero (length_filter_contracts _)
  rw [commissioningTariff, hid, pricedOrdinal_eq]
  rfl

/-- What brings a figure up to a place in the next round of `m`. -/
theorem aligned_mod {h m : Nat} (a : Nat) (hh : h < m) : (a + (h + m - a % m) % m) % m = h := by
  have hle : a % m ≤ h + m := (Nat.mod_lt a (Nat.zero_lt_of_lt hh)).le.trans (Nat.le_add_left m h)
  rw [Nat.add_mod_mod, ← Nat.mod_add_mod, Nat.add_sub_cancel' hle, Nat.add_mod_right, Nat.mod_eq_of_lt hh]

/-- R133: the first boundary is the earliest time above the first days whose time of day is the start hour. -/
theorem firstBoundary_spec {img : Image} {k : Fin 4} (h : img.startHour k < 24) :
    (img.periodDays k - 1) * 86400 < firstBoundary img k ∧ firstBoundary img k ≤ (img.periodDays k - 1) * 86400 + 86400 ∧
    (firstBoundary img k + img.dayOffset) % 86400 = img.startHour k * 3600 := by
  have hhour : img.startHour k * 3600 < 86400 := (Nat.mul_lt_mul_of_pos_right h (by decide)).trans_eq (by decide)
  have hfirst : ∀ first, first + 1 + (img.startHour k * 3600 + 86400 - (first + 1 + img.dayOffset) % 86400) % 86400 =
      first + (1 + (img.startHour k * 3600 + 86400 - (first + 1 + img.dayOffset) % 86400) % 86400) := fun first =>
    Nat.add_assoc ..
  refine ⟨?_, ?_, ?_⟩
  · rw [firstBoundary, hfirst]
    exact Nat.lt_add_of_pos_right (Nat.add_pos_left Nat.one_pos _)
  · rw [firstBoundary, hfirst, Nat.add_comm 1]
    exact Nat.add_le_add_left (Nat.mod_lt _ (by decide)) _
  · rw [firstBoundary, Nat.add_right_comm]
    exact aligned_mod _ hhour

/-- R95: the first pointer of a rank is its lowest present entry, or 0. -/
theorem firstPointer_spec (img : Image) (r : Fin 8) :
    (∀ e, (img.operator e ≠ none ∧ img.rank e = r.val) → (∀ x, x < e → ¬(img.operator x ≠ none ∧ img.rank x = r.val)) →
      firstPointer img r = e) ∧
    ((∀ e, ¬(img.operator e ≠ none ∧ img.rank e = r.val)) → firstPointer img r = 0) := by
  have htest : ∀ e, ((img.operator e).isSome && img.rank e == r.val) = true ↔ img.operator e ≠ none ∧ img.rank e = r.val :=
    fun e => by rw [Bool.and_eq_true, Option.isSome_iff_ne_none, beq_iff_eq]
  unfold firstPointer
  refine ⟨fun e he hlow => ?_, fun hnone => ?_⟩
  · obtain ⟨before, after, horder⟩ := List.append_of_mem (List.mem_finRange e)
    have hlt : ∀ x ∈ before, x < e := by
      have hpair := List.pairwise_lt_finRange 12
      rw [horder] at hpair
      exact fun x hx => (List.pairwise_append.mp hpair).2.2 x hx e List.mem_cons_self
    have hfind : (List.finRange 12).find? (fun e => (img.operator e).isSome && img.rank e == r.val) = some e :=
      List.find?_eq_some_iff_append.mpr ⟨(htest e).mpr he, before, after, horder, fun x hx => by
        rw [Bool.eq_false_iff.mpr fun h => hlow x (hlt x hx) ((htest x).mp h)]; rfl⟩
    rw [hfind]
    rfl
  · rw [List.find?_eq_none.mpr fun e _ h => hnone e ((htest e).mp h)]
    rfl

theorem firstConsumer_of_present {img : Image} {e : Fin 12} (h : img.operator e ≠ none) :
    firstConsumer img e = ⟨.ready, img.limits e, 0, none, none, 0, 0, 0, none, false⟩ :=
  if_pos (Option.isSome_iff_ne_none.mpr h)

/-- R152: a contract as the station starts. -/
theorem State.firstBilling_contract (s : State) (hst : s.station.state = .operating) (hsuspect : s.clock.suspect = false)
    (k : Fin 4) :
    let now := (s.firstBilling 0 fun _ => 1).contracts.get k
    now.period = 1 ∧ now.staged = none ∧ now.closing = none ∧ now.tariff = commissioningTariff s.img 0 k ∧
    now.nextBoundary = firstBoundary s.img k ∧
    now.opened = { Account.empty with
      period := 1, start := 0, finish := now.nextBoundary, identity := (now.tariff.map Tariff.identity).getD 0
      bandCount := (now.tariff.map fun x => x.bands.length).getD 1 } := by
  intro now
  have hnow : now = ⟨commissioningTariff s.img 0 k, none, 1, firstBoundary s.img k,
      s.openAccount 1 0 (firstBoundary s.img k) (commissioningTariff s.img 0 k), none⟩ := Table.get_ofFn ..
  rw [hnow]
  refine ⟨rfl, rfl, rfl, rfl, rfl, ?_⟩
  simp only [State.openAccount, hst, hsuspect]
  cases commissioningTariff s.img 0 k <;> rfl

/-- In BLANK nothing is posted, so the end of an erase tells no port. -/
theorem State.eraseTold_of_blank {s : State} (h : s.station.state = .blank) (n : Nat) (left : List Byte) :
    s.eraseTold n left = { s with store := s.store.eraseEnded n left } := by
  have hports : (s.eraseNoticed n left).ports = s.ports := by
    have hset : ¬s.settled = true := by rw [State.settled, h]; decide
    unfold State.eraseNoticed State.post
    rw [if_neg hset]
    split <;> rfl
  rw [State.eraseTold_eq, hports]

theorem State.enterOperating_of_blank {u : State} {c : Commit} (hc : u.station.commit = some c)
    (hst : u.station.state = .blank) : u.enterOperating = u.enterFromBlank.respond c.approver .ok [] := by
  rw [State.enterOperating, hc]
  dsimp only
  rw [if_pos hst]

theorem State.enterFromBlank_port (s : State) (p : Party) : s.enterFromBlank.port p =
    { s.port p with filter := BitVec.ofInt 32 (s.editImage.get 0x4C (partyIndex p).val) } := Table.get_ofFn ..

/-- The Billing Unit as the station starts, from a state of the committed image. -/
theorem State.enterFromBlank_billing (s : State) : ∃ v : State, v.station.state = .operating ∧ v.clock.suspect = false ∧
    v.img = s.editImage ∧ s.enterFromBlank.billing = v.firstBilling 0 fun _ => 1 :=
  ⟨_, rfl, rfl, rfl, rfl⟩

/-- Settles O47. -/
theorem commitFromBlankStartsTheStation : Obligations.CommitFromBlankStartsTheStation := by
  intro n left c s hcur hn hc hphase hne htick hst new
  have hexec := exec_lastErase (left := left) hcur hn hc hphase hne htick
  rw [State.eraseTold_of_blank hst, 
    State.enterOperating_of_blank (u := { s with store := s.store.eraseEnded n left }) (c := c) hc hst] at hexec
  refine ⟨_, hexec, rfl, rfl, rfl, rfl, rfl, rfl, rfl, rfl, fun i => Table.get_replicate .., fun i => ?_, rfl, fun d => ?_, rfl,
    rfl, rfl, fun f => Table.get_replicate .., fun e => ⟨fun he => ?_, fun he => ?_⟩, fun r => ?_,
    fun j => Table.get_replicate .., fun i => Table.get_replicate .., ?_, ⟨?_, fun k => ?_⟩, fun p => ?_,
    (State.respond_slot ..).trans ?_⟩
  · exact congrArg Slot.state (Table.get_replicate ..)
  · exact congrArg Declaration.state (Table.get_replicate ..)
  · exact (Table.get_ofFn ..).trans (firstConsumer_of_present he)
  · have hcons := (Table.get_ofFn ..).trans (firstConsumer_of_absent he)
    exact ⟨congrArg Consumer.state hcons, congrArg Consumer.confirmed hcons⟩
  · intro member
    obtain ⟨hlow, hnone⟩ := firstPointer_spec new r
    exact ⟨fun e he hx => (Table.get_ofFn ..).trans (hlow e he hx), fun h => (Table.get_ofFn ..).trans (hnone h)⟩
  · exact congrArg (fun x => (⟨x / new.intervalLength, 0, true, false, 0, false, none, []⟩ : Tracker)) (Nat.zero_add _)
  · exact identityAfter_zero (length_filter_contracts _)
  · intro now first
    obtain ⟨v, hstate, hsuspect, himg, hbilling⟩ := State.enterFromBlank_billing { s with store := s.store.eraseEnded n left }
    have hnow : now = (v.firstBilling 0 fun _ => 1).contracts.get k := congrArg (fun b : Billing => b.contracts.get k) hbilling
    obtain ⟨hperiod, hstaged, hclosing, htariff, hboundary, hopened⟩ := v.firstBilling_contract hstate hsuspect k
    rw [← hnow, himg] at htariff hboundary
    rw [← hnow] at hperiod hstaged hclosing hopened
    refine ⟨hperiod, hstaged, hclosing, htariff.trans (commissioningTariff_eq new k), hopened, fun hhour => ?_⟩
    rw [hboundary]
    exact firstBoundary_spec hhour
  · have hfilter : ∀ (t : State) (r : Result), ((t.respond c.approver r []).port p).filter = (t.port p).filter := by
      intro t r
      rw [State.respond_port]
      split
      next h => rw [h]; rfl
      next => rfl
    rw [hfilter, State.enterFromBlank_port]
    cases p <;> rfl
  · refine congrArg (fun d => ResponseSlot.ready ⟨d, .ok, []⟩) ?_
    rw [State.enterFromBlank_port]
    rfl

end Sys2Proof.Machine
end

section

-- One thread per proof would pass the memory limit of the build: each has a stack of its own.
set_option Elab.async false

/-! # Proofs: departure and catch-up (R186 to R188) -/

namespace Sys2Proof.Machine

/-! ### RESTARTED at every port (R187) -/

/-- A notice that no filter discards is the only one of a port whose queue was empty. -/
theorem State.deliver_all_queue {s : State} {n : Notice} (hk : n.kind.filterable = false)
    (hq : ∀ p, (s.port p).queue = []) (hd : ∀ p, (s.port p).dropping = false) (p : Party) :
    ((s.deliver allParties n).port p).queue = [n] := by
  have hadmits : (s.port p).admits n.kind = true := by rw [Port.admits, hk]; rfl
  rw [State.deliver_port_mem _ (by decide) _ (mem_allParties p), Port.arrive, if_pos hadmits,
    Port.offer_of_room (hd p) (by rw [hq p]; exact Nat.zero_le _), if_neg (by rw [hq p]; exact fun h => absurd h.1 (by decide)), hq p]
  rfl

/-! ### Catch-up -/

/-- The first boundary of catch-up lies where the interval of the label ends. -/
theorem boundary_offset {img : Image} {label : Nat} (hlen : 0 < img.intervalLength) :
    nextIntervalBoundary img label + img.dayOffset = (intervalOf img label + 1) * img.intervalLength := by
  refine Nat.sub_add_cancel ((Nat.le_add_left img.dayOffset label).trans ?_)
  exact ((Nat.div_lt_iff_lt_mul hlen).mp (Nat.lt_succ_self _)).le

theorem intervalOf_boundary {img : Image} {label : Nat} (hlen : 0 < img.intervalLength) :
    intervalOf img (nextIntervalBoundary img label) = intervalOf img label + 1 := by
  rw [intervalOf, boundary_offset hlen, Nat.mul_div_cancel _ hlen]

/-- A time lies before the boundary exactly when it lies in the label's interval or before it. -/
theorem lt_boundary_iff {img : Image} {label resume : Nat} (hlen : 0 < img.intervalLength) :
    resume < nextIntervalBoundary img label ↔ intervalOf img resume ≤ intervalOf img label := by
  rw [← Nat.add_lt_add_iff_right (k := img.dayOffset), boundary_offset hlen, ← Nat.div_lt_iff_lt_mul hlen]
  exact Nat.lt_succ_iff

/-- Out of the settled states an interval closes into the account of the RECORD contract alone. -/
theorem State.closeInterval_of_not_settled {s : State} (h : s.settled = false) : s.closeInterval =
    match s.img.recordContract with
    | none => s
    | some c => s.mapContract c fun k =>
      { k with opened := k.opened.addInterval (s.entryOffset (s.contract c).opened) s.tracker s.deviates } := by
  unfold State.closeInterval
  cases s.img.recordContract with
  | none => rfl
  | some c =>
    dsimp only
    split
    · exact if_neg (by rw [show State.settled (State.mapContract _ _ _) = s.settled from rfl, h]; exact Bool.false_ne_true)
    · rfl

/-- What catch-up makes of the state before it takes a boundary. -/
noncomputable def State.caughtUp (u : State) (label boundary : Nat) : State :=
  ((u.markOutage.addOutage (boundary - label)).closeInterval.mapTracker Tracker.beginNext).markOutage

/-- What catch-up makes of the state before a boundary, out of the settled states: the tracker and the contracts change. -/
theorem State.caughtUp_frame {u : State} (hset : u.settled = false) (label boundary : Nat) : ∃ contracts,
    u.caughtUp label boundary = { u with
      billing := { u.billing with contracts := contracts }
      tracker := { { u.tracker with outage := true }.beginNext with outage := true } } ∧
    ∀ c, contracts.get c =
      let k := u.contract c
      let a := { k.opened with outageSeconds := k.opened.outageSeconds + (boundary - label), outage := true }
      if u.img.recordContract = some c then
        { k with opened := a.addInterval (u.entryOffset k.opened) { u.tracker with outage := true } u.deviates }
      else { k with opened := a } := by
  have hclose := State.closeInterval_of_not_settled (s := u.markOutage.addOutage (boundary - label)) hset
  have hadded : ∀ c, (u.markOutage.addOutage (boundary - label)).contract c = { u.contract c with
      opened := { (u.contract c).opened with
        outageSeconds := (u.contract c).opened.outageSeconds + (boundary - label), outage := true } } :=
    fun c => Table.get_map ..
  rw [show (u.markOutage.addOutage (boundary - label)).img = u.img from rfl] at hclose
  unfold State.caughtUp
  cases hc : u.img.recordContract with
  | none =>
    rw [hc] at hclose
    rw [hclose]
    exact ⟨_, rfl, fun c => (hadded c).trans (if_neg nofun).symm⟩
  | some d =>
    rw [hc] at hclose
    rw [hclose]
    refine ⟨_, rfl, fun c => ?_⟩
    by_cases h : d = c
    · subst h
      refine (State.mapContract_contract _ d _).trans ?_
      dsimp only
      rw [if_pos rfl, hadded d]
      rfl
    · exact (State.mapContract_contract_ne _ _ h).trans ((hadded c).trans (if_neg fun e => h (Option.some.inj e)).symm)

/-- Catch-up from a warned checkpoint. -/
theorem State.catchUp_warned (u : State) (label resume : Nat) : u.catchUp label resume true =
    (u.markOutage.catchUpSteps label (intervalOf u.img resume - intervalOf u.img label)).1.addOutage
      (resume - (u.markOutage.catchUpSteps label (intervalOf u.img resume - intervalOf u.img label)).2) := rfl

theorem State.catchUpSteps_succ (s : State) (label n : Nat) : s.catchUpSteps label (n + 1) =
    (s.catchUpAt label (nextIntervalBoundary s.img label)).catchUpSteps (nextIntervalBoundary s.img label) n := by
  rw [State.catchUpSteps]

theorem State.catchUpAt_markOutage (u : State) (label boundary : Nat) :
    u.markOutage.catchUpAt label boundary = (u.caughtUp label boundary).takeBoundaries boundary := rfl

/-- Catch-up that reaches no boundary. -/
theorem State.catchUp_within {u : State} {label resume : Nat} (hlen : 0 < u.img.intervalLength)
    (h : resume < nextIntervalBoundary u.img label) :
    u.catchUp label resume true = u.markOutage.addOutage (resume - label) := by
  rw [State.catchUp_warned, Nat.sub_eq_zero_of_le ((lt_boundary_iff hlen).mp h)]
  rfl

/-- One step of catch-up, and the rest of it from the boundary on. -/
theorem State.catchUp_step {u : State} {label resume : Nat} (hlen : 0 < u.img.intervalLength) (hset : u.settled = false)
    (h : nextIntervalBoundary u.img label ≤ resume) :
    u.catchUp label resume true = ((u.caughtUp label (nextIntervalBoundary u.img label)).takeBoundaries
      (nextIntervalBoundary u.img label)).catchUp (nextIntervalBoundary u.img label) resume true := by
  obtain ⟨n, hn⟩ : ∃ n, intervalOf u.img resume - intervalOf u.img label = n + 1 :=
    Nat.exists_eq_add_one.mpr (Nat.sub_pos_of_lt (Nat.lt_of_not_le fun hle => absurd ((lt_boundary_iff hlen).mpr hle) h.not_gt))
  have hrest : intervalOf u.img resume - intervalOf u.img (nextIntervalBoundary u.img label) = n := by
    rw [intervalOf_boundary hlen, Nat.sub_add_eq, hn, Nat.add_sub_cancel]
  obtain ⟨contracts, hw, -⟩ := State.caughtUp_frame hset label (nextIntervalBoundary u.img label)
  obtain ⟨p, b, st, ht, -, -⟩ := OnlyBilled.takeBoundaries
    (u.caughtUp label (nextIntervalBoundary u.img label)) (nextIntervalBoundary u.img label)
  rw [State.catchUp_warned, hn, State.catchUpSteps_succ u.markOutage, State.catchUpAt_markOutage,
    show u.markOutage.img = u.img from rfl]
  generalize (u.caughtUp label (nextIntervalBoundary u.img label)).takeBoundaries (nextIntervalBoundary u.img label) = t at *
  rw [hw] at ht
  have himg : t.img = u.img := by rw [ht]; rfl
  have hmark : t.markOutage = t := by rw [ht]; rfl
  rw [State.catchUp_warned, himg, hrest, hmark]

/-- What the boundary of STARTING fixes before catch-up: the resume point, as the time, its domain and the last label. -/
def State.resumeFixed (s : State) (r : Restarting) (resume : Nat) : State :=
  { s with
    clock := { s.clock with time := resume, domain := resume, lastLabel := resume }
    startup := some { r with resume := some resume } }

/-- The first boundary after restoration with a Valid backup fixes the resume point and catches up to it (R186, R188). -/
theorem State.startingBoundary_of_unfixed {s : State} {r : Restarting} (hr : s.startup = some r) (hblank : r.toBlank = false)
    (hres : r.resume = none) (hdom : s.clock.domain < lastTime) : s.startingBoundary =
      (s.resumeFixed r (s.clock.domain + 1)).catchUp r.label (s.clock.domain + 1) r.warned := by
  have hraised : s.raised s.clock.domain = s.clock.domain + 1 := if_pos hdom
  have hraise : s.raiseDomain = { s with clock := { s.clock with domain := s.clock.domain + 1 } } := by
    rw [State.raiseDomain, hraised, if_pos hdom]
  rw [State.startingBoundary, hr]
  dsimp only
  rw [if_neg (by rw [hblank]; exact Bool.false_ne_true), if_pos (by rw [hres]; rfl), hraise, State.fixResume]
  dsimp only
  rw [hr]
  rfl

/-- Settles O53: departure by its two ends; the boundary of STARTING by its fixed resume point; catch-up by its first step. -/
theorem departureEndsStarting : Obligations.DepartureEndsStarting := by
  refine ⟨fun s r hmain hr hq hd => ⟨fun resume hblank hres => ?_, fun hblank => ?_⟩,
    fun s r hmain hst hr hblank hres hdom => ?_, fun u label resume _ hlen hset => ?_⟩
  · have hexec : exec .departure s = .next (s.departOperating r resume) := by
      refine congrArg _ ((if_pos hmain).trans ?_)
      rw [hr]
      dsimp only
      rw [if_neg (by rw [hblank]; exact Bool.false_ne_true), hres]
    exact ⟨_, hexec, rfl, rfl, rfl, rfl, rfl, rfl, State.deliver_all_queue rfl hq hd⟩
  · have hexec : exec .departure s = .next (s.departBlank r) := by
      refine congrArg _ ((if_pos hmain).trans ?_)
      rw [hr]
      dsimp only
      rw [if_pos hblank]
    exact ⟨_, hexec, rfl, rfl, rfl, rfl, State.deliver_all_queue rfl hq hd⟩
  · obtain ⟨e, hpass⟩ := State.passMs_of_mainOn hmain (1000 - s.clock.phase)
    have hexec : exec .tickBoundary s = .next s.completeSecond.startingBoundary := by
      refine congrArg _ ((if_neg (by simp [hmain])).trans ?_)
      rw [hst]
    have hsecond : s.completeSecond = { s with
        clock := { s.clock with millis := (s.clock.millis + (1000 - s.clock.phase)) % 4294967296, phase := 0 }
        pulses := { s.pulses with inputs := s.pulses.inputs.map (PulseInput.pass (1000 - s.clock.phase)) }
        store := { s.store with eraseMs := e } } := by
      unfold State.completeSecond
      dsimp only
      rw [hpass]
    rw [hsecond] at hexec
    refine ⟨_, hexec.trans (congrArg _ (State.startingBoundary_of_unfixed hr hblank hres hdom)), ?_⟩
    exact ⟨rfl, rfl, rfl, rfl, rfl, rfl, rfl, rfl, rfl, rfl, rfl, rfl⟩
  · refine ⟨rfl, fun h => State.catchUp_within hlen h, fun h => ?_⟩
    obtain ⟨contracts, hw, hget⟩ := State.caughtUp_frame hset label (nextIntervalBoundary u.img label)
    refine ⟨u.caughtUp label (nextIntervalBoundary u.img label), State.catchUp_step hlen hset h, ?_⟩
    rw [hw]
    refine ⟨rfl, rfl, rfl, rfl, rfl, rfl, fun c => (hget c).trans ?_⟩
    rw [State.deviates_eq]
    rfl

end Sys2Proof.Machine
end

section

-- One thread per proof would pass the memory limit of the build: each has a stack of its own.
set_option Elab.async false

/-! # Proofs: the restart (R171, R177, R183 to R185) -/

namespace Sys2Proof.Machine

/-! ### The store as start-up rebuilds it -/

/-- The array's bytes, the sector of the image in force and the target of a commit from BLANK stand. -/
structure Store.Found (a b : Store) : Prop where
  cells : b.cells = a.cells := by rfl
  imageSector : b.imageSector = a.imageSector := by rfl
  blankTarget : b.blankTarget = a.blankTarget := by rfl

theorem Store.Found.trans {a b c : Store} (h : a.Found b) (k : b.Found c) : a.Found c :=
  ⟨k.cells.trans h.cells, k.imageSector.trans h.imageSector, k.blankTarget.trans h.blankTarget⟩

theorem Store.Found.listErase (st : Store) (n : Nat) : st.Found (st.listErase n) := by
  obtain ⟨l, c, x, i, h⟩ := st.listErase_frame n
  rw [h]
  exact {}

theorem Store.Found.foldl_listErase (l : List Nat) (st : Store) : st.Found (l.foldl Store.listErase st) := by
  induction l generalizing st with
  | nil => exact {}
  | cons n l ih => exact (listErase st n).trans (ih _)

theorem Store.Found.listTwoAfter (st : Store) (j : Nat) : st.Found (st.listTwoAfter j) := by
  obtain ⟨l, c, x, i, h⟩ := st.listTwoAfter_frame j
  rw [h]
  exact {}

theorem Store.Found.testErases (st : Store) : st.Found st.testErases := by
  obtain ⟨l, c, x, i, h⟩ := st.testErases_frame
  rw [h]
  exact {}

/-- Start-up reads the array and finds the image's sector and the target of a commit from BLANK (R171). -/
theorem Store.rebuilt_found (st : Store) (found : Option FoundCheckpoint) (image : Option (Nat × Programmed)) :
    Store.Found { st with imageSector := image.map Prod.fst, blankTarget := blankTargetOf st.cells } (st.rebuilt found image) := by
  unfold Store.rebuilt
  extract_lets kept retired retiring walks index write erased base placed listed caught abandoned
  have hcaught : placed.Found caught := (Store.Found.listTwoAfter ..).trans (Store.Found.foldl_listErase ..)
  have habandoned : caught.Found abandoned := by
    simp only [abandoned]
    split
    · split
      · exact {}
      · exact Store.Found.listErase ..
    · exact {}
  exact Store.Found.trans (b := placed) {} (hcaught.trans (habandoned.trans (Store.Found.testErases _)))

/-! ### Closing accounts (R185) -/

/-- A store that took record programs into its queue, and changed no more than that of what the restart found. -/
structure Store.Handed (a b : Store) : Prop extends a.Found b where
  index : b.index = a.index := by rfl
  queue : a.queue ⊆ b.queue

theorem Store.Handed.refl (a : Store) : a.Handed a := { queue := List.Subset.refl _ }

theorem Store.Handed.trans {a b c : Store} (h : a.Handed b) (k : b.Handed c) : a.Handed c :=
  ⟨h.toFound.trans k.toFound, k.index.trans h.index, List.Subset.trans h.queue k.queue⟩

theorem Store.Handed.enqueue (st : Store) (op : ArrayOp) : st.Handed (st.enqueue op) := by
  rcases st.enqueue_cases op with h | ⟨n, -, h⟩ <;> rw [h] <;> exact { queue := List.subset_append_left .. }

/-- The record of a contract's closing account, as R185 hands it again. -/
def State.rehanded (s : State) (c : Fin 4) (seq : Nat) (a : Account) : ArrayOp :=
  .record ⟨c, s.img.isRecord c, partyCode (s.img.seller c), partyCode (s.img.buyer c), seq, a⟩

theorem State.handAccount_handed (s : State) (c : Fin 4) (a : Account) : ∃ st seq,
    s.handAccount c a = { s with store := st } ∧ s.store.Handed st ∧ s.rehanded c seq a ∈ st.queue := by
  refine ⟨_, (s.store.sequence + 1) % 4294967296, rfl,
    Store.Handed.trans (b := { s.store with sequence := (s.store.sequence + 1) % 4294967296 }) ⟨{}, rfl, List.Subset.refl _⟩
      (Store.Handed.enqueue ..), ?_⟩
  rw [Store.enqueue_queue]
  exact List.mem_append_right _ (List.mem_singleton_self _)

/-- The states that R185 reaches: contracts and store alone have changed, the store as a hand-over changes it. -/
def State.Checked (s t : State) : Prop :=
  ∃ contracts st, t = { s with billing := { s.billing with contracts := contracts }, store := st } ∧ s.store.Handed st

theorem State.Checked.trans {s t u : State} (h : s.Checked t) (k : t.Checked u) : s.Checked u := by
  obtain ⟨a, b, rfl, h⟩ := h
  obtain ⟨a', b', rfl, k⟩ := k
  exact ⟨_, _, rfl, h.trans k⟩

theorem State.checkClosing_checked (s : State) (c : Fin 4) : s.Checked (s.checkClosing c) := by
  unfold State.checkClosing
  split
  · exact ⟨_, _, rfl, .refl _⟩
  · split
    · exact ⟨_, _, rfl, .refl _⟩
    · obtain ⟨st, -, h, hst, -⟩ := s.handAccount_handed c ‹_›
      exact ⟨_, st, h, hst⟩

theorem State.foldl_checkClosing_checked (l : List (Fin 4)) (s : State) : s.Checked (l.foldl State.checkClosing s) := by
  induction l generalizing s with
  | nil => exact ⟨_, _, rfl, .refl _⟩
  | cons c l ih => exact (s.checkClosing_checked c).trans (ih _)

theorem State.checkClosing_contract_ne (s : State) {c k : Fin 4} (h : c ≠ k) : (s.checkClosing c).contract k = s.contract k := by
  unfold State.checkClosing
  split
  · rfl
  · split
    · exact State.mapContract_contract_ne _ _ h
    · rfl

theorem State.foldl_checkClosing_contract {l : List (Fin 4)} {k : Fin 4} (h : k ∉ l) (s : State) :
    (l.foldl State.checkClosing s).contract k = s.contract k := by
  induction l generalizing s with
  | nil => rfl
  | cons c l ih =>
    obtain ⟨hne, hl⟩ := not_or.mp (List.mem_cons.not.mp h)
    exact (ih hl _).trans (s.checkClosing_contract_ne (Ne.symm hne))

/-- What R185 makes of the closing account of one contract. -/
structure State.ClosingSettled (s t : State) (k : Fin 4) : Prop where
  nothing : (s.contract k).closing = none → (t.contract k).closing = none
  dropped : ∀ a, (s.contract k).closing = some a → t.store.holdsRecord k.val a.period = true → (t.contract k).closing = none
  waiting : ∀ a, (s.contract k).closing = some a → t.store.holdsRecord k.val a.period = false →
    (t.contract k).closing = some a ∧ ∃ seq, t.rehanded k seq a ∈ t.store.queue

theorem Store.holdsRecord_congr {a b : Store} (h : b.index = a.index) (k p : Nat) : b.holdsRecord k p = a.holdsRecord k p := by
  rw [Store.holdsRecord, h]; rfl

theorem State.checkClosing_settled (s : State) (k : Fin 4) : s.ClosingSettled (s.checkClosing k) k := by
  unfold State.checkClosing
  cases hc : (s.contract k).closing with
  | none => exact ⟨id, fun a ha => (by rw [hc] at ha; cases ha), fun a ha => (by rw [hc] at ha; cases ha)⟩
  | some a =>
    dsimp only
    split
    case isTrue hheld =>
      refine ⟨fun h => (by rw [hc] at h; cases h), fun _ _ _ => ?_, fun b hb hb' => ?_⟩
      · rw [State.mapContract_contract]
      · obtain rfl : a = b := Option.some.inj (hc.symm.trans hb)
        exact absurd hheld (by rw [show s.store.holdsRecord k.val a.period = false from hb']; exact Bool.false_ne_true)
    case isFalse hheld =>
      obtain ⟨st, seq, h, hst, hmem⟩ := s.handAccount_handed k a
      rw [h]
      refine ⟨fun h => (by rw [hc] at h; cases h), fun b hb hb' => ?_, fun b hb _ => ?_⟩
      · obtain rfl : a = b := Option.some.inj (hc.symm.trans hb)
        exact absurd ((Store.holdsRecord_congr hst.index ..).symm.trans hb') hheld
      · obtain rfl : a = b := Option.some.inj (hc.symm.trans hb)
        exact ⟨hc, seq, hmem⟩

/-- A settled closing account stays so while only the other contracts change. -/
theorem State.ClosingSettled.mono {s s' t t' : State} {k : Fin 4} (h : s.ClosingSettled t k) (hs : s'.contract k = s.contract k)
    (ht : t'.contract k = t.contract k) (hcheck : t.Checked t') : s'.ClosingSettled t' k := by
  obtain ⟨contracts, st, htt, hst⟩ := hcheck
  have hstore : t'.store = st := by rw [htt]
  have hop : ∀ seq a, t'.rehanded k seq a = t.rehanded k seq a := fun seq a => by rw [htt]; rfl
  have hholds : ∀ p, t'.store.holdsRecord k.val p = t.store.holdsRecord k.val p :=
    fun p => Store.holdsRecord_congr (by rw [hstore]; exact hst.index) ..
  refine ⟨fun h0 => ?_, fun a ha => ?_, fun a ha hno => ?_⟩
  · rw [ht]; exact h.nothing (hs ▸ h0)
  · rw [ht, hholds]; exact h.dropped a (hs ▸ ha)
  · rw [hholds] at hno
    obtain ⟨hkept, seq, hmem⟩ := h.waiting a (hs ▸ ha) hno
    exact ⟨ht ▸ hkept, seq, by rw [hop, hstore]; exact hst.queue hmem⟩

theorem State.checkClosings_settled (s : State) (k : Fin 4) : s.ClosingSettled s.checkClosings k := by
  obtain ⟨l, l', hl⟩ := List.append_of_mem (List.mem_finRange k)
  have hnodup := List.nodup_finRange 4
  rw [hl] at hnodup
  unfold State.checkClosings
  rw [hl, List.foldl_append, List.foldl_cons]
  exact ((l.foldl State.checkClosing s).checkClosing_settled k).mono
    (State.foldl_checkClosing_contract (fun h => (List.nodup_append.mp hnodup).2.2 _ h _ List.mem_cons_self rfl) s).symm
    (State.foldl_checkClosing_contract (List.nodup_cons.mp (List.nodup_append.mp hnodup).2.1).1 _)
    (State.foldl_checkClosing_checked ..)

/-! ### Resumption -/

/-- Every block takes its values from the checkpoint found, or starts anew, by the clock that STARTING takes (R177, R184). -/
noncomputable def State.resuming (s : State) (found : Option FoundCheckpoint) (label : Nat) (r : Restarting) : State :=
  let taken := { s with clock := s.clock.taken label, startup := some { r with backup := some (s.clock.backup label) } }
  match found with
  | some f => taken.restored f.checkpoint
  | none => taken.startedAnew

theorem State.resumed_eq {s : State} {r : Restarting} (hr : s.startup = some r) (found : Option FoundCheckpoint) (label : Nat) :
    s.resumed found label = if s.clock.backup label = .valid then (s.resuming found label r).checkClosings
      else (s.resuming found label r).checkClosings.fixResume label := by
  unfold State.resumed State.resuming
  rw [hr]
  rfl

theorem State.mapOpened_closing (s : State) (f : Account → Account) (k : Fin 4) :
    ((s.mapOpened f).contract k).closing = (s.contract k).closing :=
  (congrArg Contract.closing (Table.get_map (fun x : Contract => { x with opened := f x.opened }) s.billing.contracts k) :)

theorem State.addOutage_markOutage (s : State) (seconds : Nat) : ∃ contracts,
    s.markOutage.addOutage seconds = { s with
      tracker := { s.tracker with outage := true }
      billing := { s.billing with contracts := contracts } } ∧
    ∀ k, (contracts.get k).closing = (s.contract k).closing :=
  ⟨_, rfl, State.mapOpened_closing s.markOutage fun a => { a with outageSeconds := a.outageSeconds + seconds, outage := true }⟩

/-- Catch-up from a label to itself marks the running interval and the open accounts, and takes no boundary. -/
theorem State.catchUp_self (s : State) (label : Nat) (warned : Bool) : ∃ contracts,
    s.catchUp label label warned = { s with
      tracker := { s.tracker with outage := true }
      billing := { s.billing with contracts := contracts } } ∧
    ∀ k, (contracts.get k).closing = (s.contract k).closing := by
  have hpoint : s.catchUp label label warned = State.addOutage
      (State.markOutage (if warned then s else s.mapOpened fun a => { a with unwarned := true })) (label - label) := by
    unfold State.catchUp
    rw [Nat.sub_self (intervalOf s.img label)]
    rfl
  rw [hpoint]
  cases warned
  · obtain ⟨contracts, h, hclosing⟩ := (s.mapOpened fun a => { a with unwarned := true }).addOutage_markOutage (label - label)
    exact ⟨contracts, h, fun k => (hclosing k).trans (State.mapOpened_closing ..)⟩
  · exact s.addOutage_markOutage _

/-- A resume point that is the checkpoint's label leaves nothing to catch up to. -/
theorem State.fixResume_label {s : State} {r : Restarting} (hr : s.startup = some r) : ∃ contracts,
    s.fixResume r.label = { s with
      clock := { s.clock with time := r.label, lastLabel := r.label }
      startup := some { r with resume := some r.label }
      tracker := { s.tracker with outage := true }
      billing := { s.billing with contracts := contracts } } ∧
    ∀ k, (contracts.get k).closing = (s.contract k).closing := by
  unfold State.fixResume
  rw [hr]
  exact State.catchUp_self _ r.label r.warned

/-- A resumption ends with the clock, the startup, the tracker's mark and the contracts as the backup has them, and a store
that took record programs. -/
theorem State.resumed_settled {s : State} {r : Restarting} (hr : s.startup = some r) (found : Option FoundCheckpoint) :
    ∃ contracts st tracker,
      s.resumed found r.label = { s.resuming found r.label r with
        billing := { (s.resuming found r.label r).billing with contracts := contracts }
        store := st
        tracker := tracker
        clock := if s.clock.backup r.label = .valid then s.clock.taken r.label
          else { s.clock.taken r.label with time := r.label, lastLabel := r.label }
        startup := some (if s.clock.backup r.label = .valid then { r with backup := some .valid }
          else { r with backup := some (s.clock.backup r.label), resume := some r.label }) } ∧
      s.store.Handed st ∧
      ∀ k, (s.resuming found r.label r).ClosingSettled (s.resumed found r.label) k := by
  obtain ⟨contracts, st, hchecked, hst⟩ := State.foldl_checkClosing_checked (List.finRange 4) (s.resuming found r.label r)
  have hsettled := (s.resuming found r.label r).checkClosings_settled
  have hclock : (s.resuming found r.label r).clock = s.clock.taken r.label := by cases found <;> rfl
  have hstartup : (s.resuming found r.label r).startup = some { r with backup := some (s.clock.backup r.label) } := by
    cases found <;> rfl
  have hstore : (s.resuming found r.label r).store = s.store := by cases found <;> rfl
  rw [hstore] at hst
  rw [State.resumed_eq hr]
  unfold State.checkClosings at *
  generalize (List.finRange 4).foldl State.checkClosing (s.resuming found r.label r) = t at *
  generalize s.resuming found r.label r = u at *
  by_cases hvalid : s.clock.backup r.label = .valid
  · rw [if_pos hvalid, if_pos hvalid, if_pos hvalid]
    refine ⟨contracts, st, u.tracker, ?_, hst, hsettled⟩
    rw [hchecked, ← hclock, ← hvalid, ← hstartup]
  · rw [if_neg hvalid, if_neg hvalid, if_neg hvalid]
    have ht : t.startup = some { r with backup := some (s.clock.backup r.label) } := by rw [hchecked]; exact hstartup
    obtain ⟨contracts', hfixed, hclosing⟩ := State.fixResume_label ht
    refine ⟨contracts', st, { u.tracker with outage := true }, ?_, hst, fun k => ?_⟩
    · refine hfixed.trans ?_
      rw [hchecked, ← hclock]
    · rw [show t.fixResume r.label = _ from hfixed]
      exact ⟨fun h => (hclosing k).trans ((hsettled k).nothing h), fun a ha hd => (hclosing k).trans ((hsettled k).dropped a ha hd),
        fun a ha hd => ⟨(hclosing k).trans ((hsettled k).waiting a ha hd).1, ((hsettled k).waiting a ha hd).2⟩⟩

/-! ### The restart (R183) -/

/-- What the restart does not give back to the blocks once it has begun, and a store that keeps what start-up found. -/
structure State.Begun (b t : State) : Prop where
  station : t.station = b.station := by rfl
  board : t.board = b.board := by rfl
  ports : t.ports = b.ports := by rfl
  decls : t.decls = b.decls := by rfl
  queue : t.sensor.queue = [] := by rfl
  linkUp : t.sensor.linkUp = true := by rfl
  store : b.store.Found t.store

/-- What a restart sets down when STARTING begins. -/
noncomputable def State.restarting (s : State) (cause : RestartCause) : Restarting :=
  let found := foundCheckpoint s.store
  { cause := cause
    toBlank := (foundImage s.store.cells).isNone
    warned := (found.map FoundCheckpoint.warned).getD false
    noCheckpoint := (foundImage s.store.cells).isSome && found.isNone
    backup := none
    sequence := found.map fun f => f.checkpoint.sequence
    label := (found.map fun f => f.checkpoint.label).getD 0
    resume := none }

theorem State.begunRestart_startup (s : State) (cause : RestartCause) :
    (s.begunRestart cause).startup = some (s.restarting cause) := rfl

theorem State.restart_of_noImage {s : State} (h : (foundImage s.store.cells).isSome = false) (cause : RestartCause) :
    s.restart cause = s.begunRestart cause := by
  refine if_pos ?_
  rw [State.begunRestart]
  cases hi : foundImage s.store.cells with
  | none => rfl
  | some x => rw [hi] at h; cases h

theorem State.restart_of_image {s : State} (h : (foundImage s.store.cells).isSome = true) (cause : RestartCause) :
    s.restart cause = (s.begunRestart cause).resumed (foundCheckpoint s.store) (s.restarting cause).label := by
  refine if_neg ?_
  rw [State.begunRestart]
  cases hi : foundImage s.store.cells with
  | none => rw [hi] at h; cases h
  | some x => exact Bool.false_ne_true

/-- A restart leaves what STARTING began with. -/
theorem State.restart_begun (s : State) (cause : RestartCause) : (s.begunRestart cause).Begun (s.restart cause) := by
  cases h : (foundImage s.store.cells).isSome with
  | false =>
    rw [State.restart_of_noImage h]
    exact { store := {} }
  | true =>
    rw [State.restart_of_image h]
    obtain ⟨contracts, st, tracker, ht, hst, -⟩ := State.resumed_settled (s.begunRestart_startup cause) (foundCheckpoint s.store)
    rw [ht]
    cases foundCheckpoint s.store <;> exact { store := hst.toFound }

/-- R177: how a restart with an image reads the backup domain, and what clock and resume point it takes from it. -/
theorem State.restart_clock (s : State) (cause : RestartCause) : ∃ r, (s.restart cause).startup = some r ∧
    r.toBlank = (foundImage s.store.cells).isNone ∧
    ((foundImage s.store.cells).isSome = true → r.label = (s.restarting cause).label ∧
      r.backup = some (s.clock.backup r.label) ∧
      (s.clock.backup r.label = .valid → r.resume = none ∧ (s.restart cause).clock = s.clock.cleared.taken r.label) ∧
      (s.clock.backup r.label ≠ .valid → r.resume = some r.label ∧
        (s.restart cause).clock = { s.clock.cleared.taken r.label with time := r.label, lastLabel := r.label })) := by
  cases h : (foundImage s.store.cells).isSome with
  | false =>
    rw [State.restart_of_noImage h]
    exact ⟨_, rfl, rfl, nofun⟩
  | true =>
    rw [State.restart_of_image h]
    obtain ⟨contracts, st, tracker, ht, -, -⟩ := State.resumed_settled (s.begunRestart_startup cause) (foundCheckpoint s.store)
    rw [ht]
    by_cases hvalid : s.clock.backup (s.restarting cause).label = .valid
    · refine ⟨_, congrArg some (if_pos hvalid), rfl, fun _ => ⟨rfl, congrArg some hvalid.symm, fun _ => ⟨rfl, if_pos hvalid⟩,
        fun hne => absurd hvalid hne⟩⟩
    · exact ⟨_, congrArg some (if_neg hvalid), rfl, fun _ => ⟨rfl, rfl, fun he => absurd he hvalid, fun _ => ⟨rfl, if_neg hvalid⟩⟩⟩

/-- A restart takes the figures of the checkpoint found, and settles the closing accounts that it held (R184, R185). -/
theorem State.restart_restored {s : State} {f : FoundCheckpoint} (h : (foundImage s.store.cells).isSome = true)
    (hf : foundCheckpoint s.store = some f) (cause : RestartCause) :
    ∃ u : State, u.billing = f.checkpoint.billing ∧ (∀ k, u.ClosingSettled (s.restart cause) k) ∧
      (s.restart cause).alloc.frameNumber = f.checkpoint.frameNumber ∧
      (s.restart cause).fiscal.streams =
        f.checkpoint.streams.map (fun k => ⟨k.total, k.residual, 0, 0, k.errorSeconds, k.reverseSeconds, none⟩) ∧
      (s.restart cause).sensor.slots = f.checkpoint.lastGood.map Slot.restored := by
  rw [State.restart_of_image h, hf]
  obtain ⟨contracts, st, tracker, ht, -, hsettled⟩ := State.resumed_settled (s.begunRestart_startup cause) (some f)
  refine ⟨_, rfl, hsettled, ?_, ?_, ?_⟩ <;> rw [ht] <;> rfl

theorem State.begunRestart_port (s : State) (cause : RestartCause) (p : Party) : (s.begunRestart cause).port p =
    Port.atStart (match foundImage s.store.cells with
      | some (_, x) => x.image.defaultFilter p
      | none => Port.allKinds) := by
  refine (Table.get_ofFn ..).trans ?_
  cases foundImage s.store.cells <;> cases p <;> rfl

theorem Clock.backup_valid {k : Clock} {label : Nat} (hv : k.valid = true) (hl : label ≤ k.domain) : k.backup label = .valid := by
  rw [Clock.backup, hv, if_neg (by decide), if_neg hl.not_gt]

theorem Clock.backup_not_valid {k : Clock} {label : Nat} (h : k.valid = false ∨ k.domain < label) :
    k.backup label = if k.valid then .behind else .lost := by
  unfold Clock.backup
  cases hv : k.valid with
  | false => rfl
  | true => exact if_pos (h.resolve_left (by rw [hv]; decide))

theorem Clock.taken_of_valid {k : Clock} {label : Nat} (h : k.backup label = .valid) :
    k.cleared.taken label = { k.cleared with time := k.domain } := if_pos h

theorem Clock.taken_of_not_valid {k : Clock} {label : Nat} (h : k.backup label ≠ .valid) : k.cleared.taken label =
    { k.cleared with time := label, domain := label, valid := true, suspect := true, suspectAt := label } := if_neg h

/-- The events of R183 begin a restart on what is left of the array. -/
theorem exec_restarts {s : State} {c : Instr} {st : Store}
    (h : (∃ held torn, c = .resetRelease held torn ∧ 10 ≤ held ∧ s.board.resetLow = true ∧ s.board.mainOn = true ∧
      st = s.store.tear torn) ∨ (c = .powerReturn ∧ s.board.mainOn = false ∧ st = s.store)) :
    ∃ (s' : State) (cause : RestartCause), exec c s = .next (s'.restart cause) ∧ st = s'.store ∧ s.clock = s'.clock ∧ s'.board.mainOn = true := by
  obtain ⟨held, torn, rfl, hheld, hlow, hmain, rfl⟩ | ⟨rfl, hmain, rfl⟩ := h
  · exact ⟨State.mapStore { s with board := { s.board with resetLow := false } } fun x => x.tear torn, .reset,
      congrArg Host.Outcome.next (if_pos (by simp [hlow, hmain, hheld, resetMicroseconds])), rfl, rfl, hmain⟩
  · exact ⟨{ s with board := { s.board with mainOn := true } }, .powerUp,
      congrArg Host.Outcome.next (if_neg (by rw [hmain]; exact Bool.false_ne_true)), rfl, rfl, rfl⟩

theorem Slot.restored_state (lastGood : Option Int) : (Slot.restored lastGood).lastGood = lastGood ∧
    (Slot.restored lastGood).state = if lastGood.isSome then .substituted else .never := by
  cases lastGood <;> exact ⟨rfl, rfl⟩

/-- Settles O52: by what the restart leaves as it began, its clock, and what it restores from the checkpoint found. -/
theorem restartsEnterStarting : Obligations.RestartsEnterStarting := by
  intro s c st hevent
  obtain ⟨s', cause, hexec, rfl, hclock, hmain⟩ := exec_restarts hevent
  rw [hclock]
  have hbegun := s'.restart_begun cause
  obtain ⟨r, hr, hblank, himage⟩ := s'.restart_clock cause
  have hstore := Store.rebuilt_found s'.store (foundCheckpoint s'.store) (foundImage s'.store.cells)
  have hport : ∀ p, (s'.restart cause).port p = _ := fun p =>
    (congrArg (fun x : Table Port 3 => x.get (partyIndex p)) hbegun.ports).trans (s'.begunRestart_port cause p)
  refine ⟨s'.restart cause, r, hexec, congrArg Station.state hbegun.station, congrArg Station.inForce hbegun.station,
    congrArg Station.edit hbegun.station, congrArg Station.commit hbegun.station, congrArg Station.approvals hbegun.station,
    (congrArg Board.mainOn hbegun.board).trans hmain, hr, hblank, fun p => ?_, fun d => ?_, hbegun.queue, hbegun.linkUp,
    hbegun.store.cells.trans hstore.cells, hbegun.store.imageSector.trans hstore.imageSector,
    hbegun.store.blankTarget.trans hstore.blankTarget, fun hi => ?_, fun f hi hf => ?_⟩
  · rw [hport]
    exact ⟨rfl, rfl, rfl, rfl, rfl⟩
  · rw [hbegun.decls]
    exact Table.get_replicate ..
  · obtain ⟨hlabel, hbackup, hvalid, hnot⟩ := himage hi
    rw [show ((foundCheckpoint s'.store).map fun f => f.checkpoint.label).getD 0 = r.label from hlabel.symm]
    refine ⟨rfl, fun hv hl => ?_, fun hlost => ?_⟩
    · have hb := Clock.backup_valid hv hl
      obtain ⟨hresume, hc⟩ := hvalid hb
      rw [hc, Clock.taken_of_valid hb]
      exact ⟨hbackup.trans (congrArg some hb), rfl, rfl, hv, rfl, rfl, hresume⟩
    · have hb := Clock.backup_not_valid hlost
      have hne : s'.clock.backup r.label ≠ .valid := by rw [hb]; split <;> exact nofun
      obtain ⟨hresume, hc⟩ := hnot hne
      rw [hc, Clock.taken_of_not_valid hne]
      exact ⟨hbackup.trans (congrArg some hb), rfl, rfl, rfl, rfl, rfl, hresume⟩
  · obtain ⟨u, hu, hclosing, hframe, hstreams, hslots⟩ := State.restart_restored hi hf cause
    refine ⟨fun k => ?_, ?_, hframe, fun i => ?_, fun i => ?_⟩
    · rw [← hu]
      exact ⟨(hclosing k).nothing, fun a ha => ⟨(hclosing k).dropped a ha, (hclosing k).waiting a ha⟩⟩
    · exact (himage hi).1.trans (by rw [State.restarting, hf]; rfl)
    · rw [hstreams, Table.get_map]
      exact ⟨rfl, rfl, rfl⟩
    · rw [hslots, Table.get_map]
      exact Slot.restored_state _

end Sys2Proof.Machine
end
